-- ==== Sys2Proof/Word.lean ====
section
/-! DEFINITION. The two word types of the CORE: `XLEN = 8` and `ALEN = 16` (00_scope.md R6).
Byte order and the register codes stand in `Decode.lean`. -/

namespace Sys2Proof

/-- A general register, an ALU operand, a memory cell: `XLEN = 8` bits (R6). -/
abbrev Byte := BitVec 8

/-- `pc`, `sp`, a register pair, a 16-bit immediate: `ALEN = 16` bits (R6). -/
abbrev Word := BitVec 16

end Sys2Proof
end

