-- ==== Sys2Proof/Config.lean ====
section
/-! DEFINITION. The parameters of the model (00_scope.md R6) and its one free value (the byte an `IN` receives).
The two parameters with a value, `MEM_SIZE` and `UNLISTED_OPS`, are plain data carried unchanged in `State.params`,
so that every statement ranges over all their values. -/

namespace Sys2Proof

/-- `UNLISTED_OPS` (R6, R196): what the 31 opcode values of 48_unlisted.md that the source does not enumerate do. -/
inductive UnlistedOps where
  /-- Each of them raises `UnimplementedOpcode` (R197): the spec's default. -/
  | fault
  /-- Each of them has the Intel 8080's action (R198 to R213). -/
  | i8080
  deriving DecidableEq, Repr

/-- The parameters fixed for a whole run (R6).
DESIGN CHOICE (safe, log 1): `MEM_SIZE` is held as its excess over 65536, so that a size below 65536,
which the spec says a model should refuse (93 U7), cannot be written at all. -/
structure Params where
  memExtra    : Nat
  unlistedOps : UnlistedOps
  deriving DecidableEq, Repr

/-- `MEM_SIZE`, the number of bytes the Memory Port serves: at least 65536 (R6, R38). -/
def Params.memSize (p : Params) : Nat := 65536 + p.memExtra

/-- The parameters for a given `MEM_SIZE`; a size below 65536 is refused (93 U7). -/
def Params.ofMemSize? (size : Nat) (u : UnlistedOps) : Option Params :=
  if 65536 ≤ size then some { memExtra := size - 65536, unlistedOps := u } else none

/-- The default parameters: `MEM_SIZE = 65536`, `UNLISTED_OPS = fault` (R6). -/
def Params.default : Params := { memExtra := 0, unlistedOps := .fault }

/-- One access of the I/O Port (R184): a byte the host answered to an `IN`, or a byte an `OUT` sent. -/
inductive IoEvent where
  | input  (port v : Byte)
  | output (port v : Byte)
  deriving DecidableEq, Repr

/-- `IoRead` (R6, R184): the byte the host answers to an `IN` when `State.ioAnswers` lists no answer for it.
A free value: it has no body, so nothing can be proved of it. It is applied to the I/O history so far
(newest first), which every executed `IN` and `OUT` extends, and to the port (log 3). -/
opaque Config.ioRead : List IoEvent → Byte → Byte

end Sys2Proof
end

