-- ==== Sys2Proof/Syntax.lean ====
section
/-! DEFINITION. The instructions: one constructor of `Instr` for every mnemonic of spec/opcode_table.json, and the
operand kinds of 30_encoding.md R58, R61, R62. -/

namespace Sys2Proof

/-- The seven 8-bit registers (10_state.md R11). -/
inductive Reg where
  | b | c | d | e | h | l | a
  deriving DecidableEq, Repr

/-- What a 3-bit register code selects (R58): a register, or `M`, the memory byte at `rp[HL]`. -/
inductive Operand where
  | reg (r : Reg)
  | m
  deriving DecidableEq, Repr

/-- What a pair code selects in `LXI`, `INX`, `DCX`, `DAD` (R61). -/
inductive Pair where
  | bc | de | hl | sp
  deriving DecidableEq, Repr

/-- What a pair code selects in `PUSH` and `POP`, less code 11, which is `PUSH PSW` / `POP PSW` (R61). -/
inductive StackPair where
  | bc | de | hl
  deriving DecidableEq, Repr

/-- What the one pair bit selects in `LDAX` and `STAX` (R61). -/
inductive IndirectPair where
  | bc | de
  deriving DecidableEq, Repr

/-- The eight conditions (R62, 45_control_transfer.md R140). -/
inductive Cond where
  | nz | z | nc | c | po | pe | p | m
  deriving DecidableEq, Repr

/-- The instructions of the CORE, in the order of the spec's family files 40 to 48. -/
inductive Instr where
  -- 40_load_move.md
  | mvi (dst : Operand) (v : Byte)
  | lxi (p : Pair) (v : Word)
  | mov (dst src : Operand)
  -- 41_arithmetic.md
  | add (src : Operand)
  | adc (src : Operand)
  | sub (src : Operand)
  | sbb (src : Operand)
  | adi (v : Byte)
  | aci (v : Byte)
  | sui (v : Byte)
  | sbi (v : Byte)
  -- 42_logical_compare.md
  | ana (src : Operand)
  | xra (src : Operand)
  | ora (src : Operand)
  | ani (v : Byte)
  | xri (v : Byte)
  | ori (v : Byte)
  | cmp (src : Operand)
  | cpi (v : Byte)
  -- 43_incdec_rotate.md
  | inr (dst : Operand)
  | dcr (dst : Operand)
  | rlc
  | rrc
  | ral
  | rar
  -- 44_stack.md
  | push (p : StackPair)
  | pop (p : StackPair)
  | pushPsw
  | popPsw
  -- 45_control_transfer.md
  | jmp (addr : Word)
  | jnz (addr : Word)
  | jz (addr : Word)
  | jnc (addr : Word)
  | jc (addr : Word)
  | jpo (addr : Word)
  | jpe (addr : Word)
  | jp (addr : Word)
  | jm (addr : Word)
  | call (addr : Word)
  | cnz (addr : Word)
  | cz (addr : Word)
  | cnc (addr : Word)
  | cc (addr : Word)
  | cpo (addr : Word)
  | cpe (addr : Word)
  | cp (addr : Word)
  | cm (addr : Word)
  | ret
  | rnz
  | rz
  | rnc
  | rc
  | rpo
  | rpe
  | rp
  | rm
  -- 46_exchange_sp_pc.md
  | xchg
  | xthl
  | sphl
  | pchl
  -- 47_io_int_halt_nop.md
  | inPort (port : Byte)
  | outPort (port : Byte)
  | ei
  | di
  | hlt
  | nop
  /-- The seven undefined values `00xxx000`, `xxx` not 000, that execute as `NOP` (R192). -/
  | nopAlias (x : BitVec 3)
  -- 48_unlisted.md
  | lda (addr : Word)
  | sta (addr : Word)
  | lhld (addr : Word)
  | shld (addr : Word)
  | ldax (p : IndirectPair)
  | stax (p : IndirectPair)
  | inx (p : Pair)
  | dcx (p : Pair)
  | dad (p : Pair)
  | daa
  | cma
  | stc
  | cmc
  | rst (n : BitVec 3)
  /-- The undefined value `CB` (R214), with the two operand bytes its `LEN` of 3 gives it (R66). -/
  | jmpAlias (addr : Word)
  /-- The undefined value `D9` (R214). -/
  | retAlias
  /-- The undefined values `11xx1101`, `xx` not 00: `DD ED FD` (R214), with the operand bytes of `LEN` 3. -/
  | callAlias (x : BitVec 2) (addr : Word)
  deriving DecidableEq, Repr

end Sys2Proof
end

