-- ==== Sys2Proof/WellFormed.lean ====
section
/-! DEFINITION. Which terms of `Instr` are instructions of the CORE: those some bytes decode to. -/

namespace Sys2Proof

/-- Three forms are no instruction: `MOV M,M` (its opcode value `0x76` is `HLT`, 30_encoding.md R65, R69), the `NOP`
alias with `xxx = 000` (that value is `NOP`, R192), and the `CALL` alias with `xx = 00` (that value is `CALL`, R65). -/
def Instr.wellFormed : Instr → Bool
  | .mov dst src   => !(dst == .m && src == .m)
  | .nopAlias x    => x != 0
  | .callAlias x _ => x != 0
  | .mvi _ _ | .lxi _ _ | .add _ | .adc _ | .sub _ | .sbb _ | .adi _ | .aci _ | .sui _ | .sbi _ | .ana _
  | .xra _ | .ora _ | .ani _ | .xri _ | .ori _ | .cmp _ | .cpi _ | .inr _ | .dcr _ | .rlc | .rrc | .ral | .rar
  | .push _ | .pop _ | .pushPsw | .popPsw | .jmp _ | .jnz _ | .jz _ | .jnc _ | .jc _ | .jpo _ | .jpe _ | .jp _
  | .jm _ | .call _ | .cnz _ | .cz _ | .cnc _ | .cc _ | .cpo _ | .cpe _ | .cp _ | .cm _ | .ret | .rnz | .rz
  | .rnc | .rc | .rpo | .rpe | .rp | .rm | .xchg | .xthl | .sphl | .pchl | .inPort _ | .outPort _ | .ei | .di
  | .hlt | .nop | .lda _ | .sta _ | .lhld _ | .shld _ | .ldax _ | .stax _ | .inx _ | .dcx _ | .dad _ | .daa
  | .cma | .stc | .cmc | .rst _ | .jmpAlias _ | .retAlias => true

end Sys2Proof
end

