-- ==== Sys2Proof/Decode.lean ====
section
/-! DEFINITION. The instruction encoding (30_encoding.md): byte order of a 16-bit value, register, pair and condition
codes, the decoder, the length table, the opcode classes, the encoder. Every number is the Intel 8080's, which the spec
supplies from general knowledge (R57, R65; 93 G1 to G7). -/

namespace Sys2Proof

/-! ### Bytes and 16-bit values (00_scope.md R7) -/

/-- `hi8(w) = w[15:8]`. -/
def hi8 (w : Word) : Byte := w.extractLsb' 8 8

/-- `lo8(w) = w[7:0]`. -/
def lo8 (w : Word) : Byte := w.extractLsb' 0 8

/-- `hi:lo`, the 16-bit value `hi * 256 + lo`. -/
def pair16 (hi lo : Byte) : Word := hi ++ lo

/-! ### Codes (R58, R61, R62, R63) -/

/-- The register code of an operand (R58): `B C D E H L M A` are 000 to 111. -/
def Operand.code : Operand → BitVec 3
  | .reg .b => 0b000#3
  | .reg .c => 0b001#3
  | .reg .d => 0b010#3
  | .reg .e => 0b011#3
  | .reg .h => 0b100#3
  | .reg .l => 0b101#3
  | .m      => 0b110#3
  | .reg .a => 0b111#3

/-- The operand a register code selects (R58). -/
def Operand.ofCode (code : BitVec 3) : Operand :=
  match code.toNat with
  | 0 => .reg .b
  | 1 => .reg .c
  | 2 => .reg .d
  | 3 => .reg .e
  | 4 => .reg .h
  | 5 => .reg .l
  | 6 => .m
  | _ => .reg .a

/-- The pair code in `LXI`, `INX`, `DCX`, `DAD` (R61). -/
def Pair.code : Pair → BitVec 2
  | .bc => 0b00#2
  | .de => 0b01#2
  | .hl => 0b10#2
  | .sp => 0b11#2

/-- The pair a pair code selects in `LXI`, `INX`, `DCX`, `DAD` (R61). -/
def Pair.ofCode (code : BitVec 2) : Pair :=
  match code.toNat with
  | 0 => .bc
  | 1 => .de
  | 2 => .hl
  | _ => .sp

/-- The pair code in `PUSH` and `POP` (R61); code 11 is `PSW`. -/
def StackPair.code : StackPair → BitVec 2
  | .bc => 0b00#2
  | .de => 0b01#2
  | .hl => 0b10#2

/-- The pair bit `op[4]` of `LDAX` and `STAX` (R61). -/
def IndirectPair.code : IndirectPair → BitVec 1
  | .bc => 0b0#1
  | .de => 0b1#1

/-- The condition code (R62). -/
def Cond.code : Cond → BitVec 3
  | .nz => 0b000#3
  | .z  => 0b001#3
  | .nc => 0b010#3
  | .c  => 0b011#3
  | .po => 0b100#3
  | .pe => 0b101#3
  | .p  => 0b110#3
  | .m  => 0b111#3

/-! ### The decoder -/

/-- What an opcode byte selects: a format (R56) and, with the operand bytes it asks for, an instruction. -/
inductive OpForm where
  /-- Format F1: the opcode byte alone. -/
  | f1 (i : Instr)
  /-- Format F2: `d8` or `port`, byte 2. -/
  | f2 (mk : Byte → Instr)
  /-- Format F3: `d16` or `addr`, byte 2 its low half and byte 3 its high half. -/
  | f3 (mk : Word → Instr)

/-- Group 00 of the map (R65): `y = op[5:3]`, `z = op[2:0]`; the pair code is `op[5:4] = y[2:1]`. -/
def opForm00 (y z : BitVec 3) : OpForm :=
  let pp : Pair := Pair.ofCode (y.extractLsb' 1 2)
  match z.toNat with
  | 0 => .f1 (if y = 0 then .nop else .nopAlias y)
  | 1 => if y.getLsbD 0 then .f1 (.dad pp) else .f3 (.lxi pp)
  | 2 =>
    match y.toNat with
    | 0 => .f1 (.stax .bc)
    | 1 => .f1 (.ldax .bc)
    | 2 => .f1 (.stax .de)
    | 3 => .f1 (.ldax .de)
    | 4 => .f3 .shld
    | 5 => .f3 .lhld
    | 6 => .f3 .sta
    | _ => .f3 .lda
  | 3 => .f1 (if y.getLsbD 0 then .dcx pp else .inx pp)
  | 4 => .f1 (.inr (Operand.ofCode y))
  | 5 => .f1 (.dcr (Operand.ofCode y))
  | 6 => .f2 (.mvi (Operand.ofCode y))
  | _ =>
    match y.toNat with
    | 0 => .f1 .rlc
    | 1 => .f1 .rrc
    | 2 => .f1 .ral
    | 3 => .f1 .rar
    | 4 => .f1 .daa
    | 5 => .f1 .cma
    | 6 => .f1 .stc
    | _ => .f1 .cmc

/-- Group 01 (R65): `MOV ddd,sss`, but `0x76`, where both codes are 110, is `HLT` (R69). -/
def opForm01 (y z : BitVec 3) : OpForm :=
  if y = 0b110#3 ∧ z = 0b110#3 then .f1 .hlt else .f1 (.mov (Operand.ofCode y) (Operand.ofCode z))

/-- Group 10 (R65, R63): the ALU operation `ooo = op[5:3]` on the operand `sss = op[2:0]`. -/
def opForm10 (y z : BitVec 3) : OpForm :=
  let src := Operand.ofCode z
  match y.toNat with
  | 0 => .f1 (.add src)
  | 1 => .f1 (.adc src)
  | 2 => .f1 (.sub src)
  | 3 => .f1 (.sbb src)
  | 4 => .f1 (.ana src)
  | 5 => .f1 (.xra src)
  | 6 => .f1 (.ora src)
  | _ => .f1 (.cmp src)

/-- Group 11 (R65): control transfer, stack, immediates, I/O. -/
def opForm11 (y z : BitVec 3) : OpForm :=
  match z.toNat with
  | 0 =>
    match y.toNat with
    | 0 => .f1 .rnz
    | 1 => .f1 .rz
    | 2 => .f1 .rnc
    | 3 => .f1 .rc
    | 4 => .f1 .rpo
    | 5 => .f1 .rpe
    | 6 => .f1 .rp
    | _ => .f1 .rm
  | 1 =>
    match y.toNat with
    | 0 => .f1 (.pop .bc)
    | 1 => .f1 .ret
    | 2 => .f1 (.pop .de)
    | 3 => .f1 .retAlias
    | 4 => .f1 (.pop .hl)
    | 5 => .f1 .pchl
    | 6 => .f1 .popPsw
    | _ => .f1 .sphl
  | 2 =>
    match y.toNat with
    | 0 => .f3 .jnz
    | 1 => .f3 .jz
    | 2 => .f3 .jnc
    | 3 => .f3 .jc
    | 4 => .f3 .jpo
    | 5 => .f3 .jpe
    | 6 => .f3 .jp
    | _ => .f3 .jm
  | 3 =>
    match y.toNat with
    | 0 => .f3 .jmp
    | 1 => .f3 .jmpAlias
    | 2 => .f2 .outPort
    | 3 => .f2 .inPort
    | 4 => .f1 .xthl
    | 5 => .f1 .xchg
    | 6 => .f1 .di
    | _ => .f1 .ei
  | 4 =>
    match y.toNat with
    | 0 => .f3 .cnz
    | 1 => .f3 .cz
    | 2 => .f3 .cnc
    | 3 => .f3 .cc
    | 4 => .f3 .cpo
    | 5 => .f3 .cpe
    | 6 => .f3 .cp
    | _ => .f3 .cm
  | 5 =>
    match y.toNat with
    | 0 => .f1 (.push .bc)
    | 1 => .f3 .call
    | 2 => .f1 (.push .de)
    | 3 => .f3 (.callAlias 0b01#2)
    | 4 => .f1 (.push .hl)
    | 5 => .f3 (.callAlias 0b10#2)
    | 6 => .f1 .pushPsw
    | _ => .f3 (.callAlias 0b11#2)
  | 6 =>
    match y.toNat with
    | 0 => .f2 .adi
    | 1 => .f2 .aci
    | 2 => .f2 .sui
    | 3 => .f2 .sbi
    | 4 => .f2 .ani
    | 5 => .f2 .xri
    | 6 => .f2 .ori
    | _ => .f2 .cpi
  | _ => .f1 (.rst y)

/-- The opcode map (R65), by the fields of R57; every byte value selects one form (R69). -/
def opForm (op : Byte) : OpForm :=
  let y := op.extractLsb' 3 3
  let z := op.extractLsb' 0 3
  match (op.extractLsb' 6 2).toNat with
  | 0 => opForm00 y z
  | 1 => opForm01 y z
  | 2 => opForm10 y z
  | _ => opForm11 y z

/-- Why bytes are no instruction: the opcode map is total (R69), so only missing bytes are. -/
inductive DecodeError where
  /-- There is no opcode byte. -/
  | noOpcode
  /-- Operand bytes that the opcode byte `op` asks for are missing. -/
  | missingOperand (op : Byte)
  deriving DecidableEq, Repr

/-- The instruction at the head of a list of bytes, and the bytes after it (R55, R64, R72). -/
def decode : List Byte → Except DecodeError (Instr × List Byte)
  | [] => .error .noOpcode
  | op :: rest =>
    match opForm op, rest with
    | .f1 i, _ => .ok (i, rest)
    | .f2 mk, b2 :: rest2 => .ok (mk b2, rest2)
    | .f2 _, [] => .error (.missingOperand op)
    | .f3 mk, b2 :: b3 :: rest3 => .ok (mk (pair16 b3 b2), rest3)
    | .f3 _, [] => .error (.missingOperand op)
    | .f3 _, [_] => .error (.missingOperand op)

/-! ### The length table and the opcode classes (R66, R68) -/

/-- `LEN`, rows `0x` to `7x` of R66's table. -/
def lengthRowsLow : List Nat :=
  [1, 3, 1, 1, 1, 1, 2, 1, 1, 1, 1, 1, 1, 1, 2, 1] ++
  [1, 3, 1, 1, 1, 1, 2, 1, 1, 1, 1, 1, 1, 1, 2, 1] ++
  [1, 3, 3, 1, 1, 1, 2, 1, 1, 1, 3, 1, 1, 1, 2, 1] ++
  [1, 3, 3, 1, 1, 1, 2, 1, 1, 1, 3, 1, 1, 1, 2, 1] ++
  List.replicate 64 1

/-- `LEN`, rows `8x` to `Fx` of R66's table. -/
def lengthRowsHigh : List Nat :=
  List.replicate 64 1 ++
  [1, 1, 3, 3, 3, 1, 2, 1, 1, 1, 3, 3, 3, 3, 2, 1] ++
  [1, 1, 3, 2, 3, 1, 2, 1, 1, 1, 3, 2, 3, 3, 2, 1] ++
  [1, 1, 3, 1, 3, 1, 2, 1, 1, 1, 3, 1, 3, 3, 2, 1] ++
  [1, 1, 3, 1, 3, 1, 2, 1, 1, 1, 3, 1, 3, 3, 2, 1]

/-- `LEN[op]` (R66), a function of the opcode byte alone. -/
def lengthOf (op : Byte) : Nat := (lengthRowsLow ++ lengthRowsHigh).getD op.toNat 1

/-- The classes of opcode values (R65, R68; the `class` key of opcode_table.json). -/
inductive OpClass where
  | listed | undefinedNop | unlisted | unlistedDaa | undefinedFault
  deriving DecidableEq, Repr

/-- R68's set `UNLISTED`, 31 values. -/
def unlistedOpcodes : List Byte :=
  [0x02, 0x12, 0x22, 0x32, 0x0A, 0x1A, 0x2A, 0x3A, 0x03, 0x13, 0x23, 0x33, 0x0B, 0x1B, 0x2B, 0x3B] ++
  [0x09, 0x19, 0x29, 0x39, 0x2F, 0x37, 0x3F, 0xC7, 0xCF, 0xD7, 0xDF, 0xE7, 0xEF, 0xF7, 0xFF]

/-- The five undefined values that always fault (R67, R214). -/
def undefinedFaultOpcodes : List Byte := [0xCB, 0xD9, 0xDD, 0xED, 0xFD]

/-- The seven undefined values that execute as `NOP` (R67, R192). -/
def undefinedNopOpcodes : List Byte := [0x08, 0x10, 0x18, 0x20, 0x28, 0x30, 0x38]

/-- The class of an opcode value. -/
def opClass (op : Byte) : OpClass :=
  if op ∈ undefinedFaultOpcodes then .undefinedFault
  else if op = 0x27 then .unlistedDaa
  else if op ∈ unlistedOpcodes then .unlisted
  else if op ∈ undefinedNopOpcodes then .undefinedNop
  else .listed

/-- `faults_unimplemented(op)` (R68). -/
def faultsUnimplemented (u : UnlistedOps) (op : Byte) : Bool :=
  match opClass op with
  | .undefinedFault | .unlistedDaa => true
  | .unlisted => u == .fault
  | .listed | .undefinedNop => false

/-! ### The encoder -/

/-- The opcode byte of an instruction, from the patterns of R65 and the families' `Encoding` lines. -/
def Instr.opcode : Instr → Byte
  | .nop           => 0b00000000
  | .nopAlias x    => 0b00#2 ++ x ++ 0b000#3
  | .lxi p _       => 0b00#2 ++ p.code ++ 0b0001#4
  | .stax p        => 0b000#3 ++ p.code ++ 0b0010#4
  | .shld _        => 0b00100010
  | .sta _         => 0b00110010
  | .inx p         => 0b00#2 ++ p.code ++ 0b0011#4
  | .inr dst       => 0b00#2 ++ dst.code ++ 0b100#3
  | .dcr dst       => 0b00#2 ++ dst.code ++ 0b101#3
  | .mvi dst _     => 0b00#2 ++ dst.code ++ 0b110#3
  | .rlc           => 0b00000111
  | .rrc           => 0b00001111
  | .ral           => 0b00010111
  | .rar           => 0b00011111
  | .daa           => 0b00100111
  | .cma           => 0b00101111
  | .stc           => 0b00110111
  | .cmc           => 0b00111111
  | .dad p         => 0b00#2 ++ p.code ++ 0b1001#4
  | .ldax p        => 0b000#3 ++ p.code ++ 0b1010#4
  | .lhld _        => 0b00101010
  | .lda _         => 0b00111010
  | .dcx p         => 0b00#2 ++ p.code ++ 0b1011#4
  | .mov dst src   => 0b01#2 ++ dst.code ++ src.code
  | .hlt           => 0b01110110
  | .add src       => 0b10000#5 ++ src.code
  | .adc src       => 0b10001#5 ++ src.code
  | .sub src       => 0b10010#5 ++ src.code
  | .sbb src       => 0b10011#5 ++ src.code
  | .ana src       => 0b10100#5 ++ src.code
  | .xra src       => 0b10101#5 ++ src.code
  | .ora src       => 0b10110#5 ++ src.code
  | .cmp src       => 0b10111#5 ++ src.code
  | .rnz           => 0b11#2 ++ Cond.nz.code ++ 0b000#3
  | .rz            => 0b11#2 ++ Cond.z.code ++ 0b000#3
  | .rnc           => 0b11#2 ++ Cond.nc.code ++ 0b000#3
  | .rc            => 0b11#2 ++ Cond.c.code ++ 0b000#3
  | .rpo           => 0b11#2 ++ Cond.po.code ++ 0b000#3
  | .rpe           => 0b11#2 ++ Cond.pe.code ++ 0b000#3
  | .rp            => 0b11#2 ++ Cond.p.code ++ 0b000#3
  | .rm            => 0b11#2 ++ Cond.m.code ++ 0b000#3
  | .pop p         => 0b11#2 ++ p.code ++ 0b0001#4
  | .popPsw        => 0b11110001
  | .jnz _         => 0b11#2 ++ Cond.nz.code ++ 0b010#3
  | .jz _          => 0b11#2 ++ Cond.z.code ++ 0b010#3
  | .jnc _         => 0b11#2 ++ Cond.nc.code ++ 0b010#3
  | .jc _          => 0b11#2 ++ Cond.c.code ++ 0b010#3
  | .jpo _         => 0b11#2 ++ Cond.po.code ++ 0b010#3
  | .jpe _         => 0b11#2 ++ Cond.pe.code ++ 0b010#3
  | .jp _          => 0b11#2 ++ Cond.p.code ++ 0b010#3
  | .jm _          => 0b11#2 ++ Cond.m.code ++ 0b010#3
  | .jmp _         => 0b11000011
  | .jmpAlias _    => 0b11001011
  | .outPort _     => 0b11010011
  | .inPort _      => 0b11011011
  | .xthl          => 0b11100011
  | .xchg          => 0b11101011
  | .di            => 0b11110011
  | .ei            => 0b11111011
  | .cnz _         => 0b11#2 ++ Cond.nz.code ++ 0b100#3
  | .cz _          => 0b11#2 ++ Cond.z.code ++ 0b100#3
  | .cnc _         => 0b11#2 ++ Cond.nc.code ++ 0b100#3
  | .cc _          => 0b11#2 ++ Cond.c.code ++ 0b100#3
  | .cpo _         => 0b11#2 ++ Cond.po.code ++ 0b100#3
  | .cpe _         => 0b11#2 ++ Cond.pe.code ++ 0b100#3
  | .cp _          => 0b11#2 ++ Cond.p.code ++ 0b100#3
  | .cm _          => 0b11#2 ++ Cond.m.code ++ 0b100#3
  | .push p        => 0b11#2 ++ p.code ++ 0b0101#4
  | .pushPsw       => 0b11110101
  | .adi _         => 0b11000110
  | .aci _         => 0b11001110
  | .sui _         => 0b11010110
  | .sbi _         => 0b11011110
  | .ani _         => 0b11100110
  | .xri _         => 0b11101110
  | .ori _         => 0b11110110
  | .cpi _         => 0b11111110
  | .rst n         => 0b11#2 ++ n ++ 0b111#3
  | .ret           => 0b11001001
  | .retAlias      => 0b11011001
  | .pchl          => 0b11101001
  | .sphl          => 0b11111001
  | .call _        => 0b11001101
  | .callAlias x _ => 0b11#2 ++ x ++ 0b1101#4

/-- The operand bytes of an instruction, in ascending address order (R41, R56, R64). -/
def Instr.operandBytes : Instr → List Byte
  -- format F2
  | .mvi _ v | .adi v | .aci v | .sui v | .sbi v | .ani v | .xri v | .ori v | .cpi v => [v]
  | .inPort port | .outPort port => [port]
  -- format F3
  | .lxi _ w => [lo8 w, hi8 w]
  | .jmp w | .jnz w | .jz w | .jnc w | .jc w | .jpo w | .jpe w | .jp w | .jm w => [lo8 w, hi8 w]
  | .call w | .cnz w | .cz w | .cnc w | .cc w | .cpo w | .cpe w | .cp w | .cm w => [lo8 w, hi8 w]
  | .lda w | .sta w | .lhld w | .shld w => [lo8 w, hi8 w]
  | .jmpAlias w | .callAlias _ w => [lo8 w, hi8 w]
  -- format F1
  | .mov _ _ | .add _ | .adc _ | .sub _ | .sbb _ | .ana _ | .xra _ | .ora _ | .cmp _ => []
  | .inr _ | .dcr _ | .rlc | .rrc | .ral | .rar | .push _ | .pop _ | .pushPsw | .popPsw => []
  | .ret | .rnz | .rz | .rnc | .rc | .rpo | .rpe | .rp | .rm => []
  | .xchg | .xthl | .sphl | .pchl | .ei | .di | .hlt | .nop | .nopAlias _ => []
  | .ldax _ | .stax _ | .inx _ | .dcx _ | .dad _ | .daa | .cma | .stc | .cmc | .rst _ | .retAlias => []

/-- The bytes of an instruction, the opcode byte first (R55, R56). -/
def encode (i : Instr) : List Byte := i.opcode :: i.operandBytes

/-! ### The host's reading of the table -/

/-- The bytes of a number of `nbits` bits, the byte at the lowest address being bits 7..0, up to the longest
instruction (three bytes); every bit above `nbits` is 0. -/
def tableBytes (nbits w : Nat) : List Byte :=
  let v := w % 2 ^ nbits
  [BitVec.ofNat 8 v, BitVec.ofNat 8 (v / 256), BitVec.ofNat 8 (v / 65536)]

/-- The instruction the decoder reads from an instruction whose bits are `w`, bit 0 the least significant bit of the
first byte. -/
def decodeTableWord (nbits w : Nat) : Option Instr :=
  match decode (tableBytes nbits w) with
  | .ok (i, _) => some i
  | .error _ => none

end Sys2Proof
end

