-- ==== Sys2Proof/Machine/State.lean ====
section
/-! DEFINITION. The state of the machine as plain data (10_state.md), the reasons a step can stop (60_exceptions.md),
and the state after reset (70_reset_and_hazards.md R251 to R255). -/

namespace Sys2Proof.Machine

/-- The seven 8-bit registers (R11). The pairs `BC`, `DE`, `HL` are views of these fields, not storage (R13). -/
structure Regs where
  b : Byte
  c : Byte
  d : Byte
  e : Byte
  h : Byte
  l : Byte
  a : Byte
  deriving DecidableEq, Repr

/-- The five independent condition flags (R19): Zero, Sign, Parity, Carry, AuxCarry. -/
structure Flags where
  z  : Bool
  s  : Bool
  p  : Bool
  cy : Bool
  ac : Bool
  deriving DecidableEq, Repr

/-- The memory behind the Memory Port (R39): a list of (address, byte) pairs in one canonical form
(`Memory.wf` of Machine/Ops.lean). -/
abbrev Memory := List Host.Cell

/-- What a step that did not fault returned (R226, R71). The two faults of `StepResult` are `Fault`. -/
inductive StepResult where
  /-- `Continue`. -/
  | continued
  /-- `Halted`: the instruction was `HLT` (R189). -/
  | halted
  deriving DecidableEq, Repr

/-- The CORE's 94 bits (`regs sp pc inte flags`, R10), the memory behind its Memory Port, and the model's own fields:
the parameters of the run (`params`, R6, log 1), the result the last step returned (`result`, log 4), the history of
I/O Port accesses, newest first (`ioHistory`, R184, log 3), and the bytes the host will answer to the next `IN`s,
next first (`ioAnswers`, R184, log 3). -/
structure State where
  regs      : Regs
  sp        : Word
  pc        : Word
  inte      : Bool
  flags     : Flags
  mem       : Memory
  params    : Params
  result    : StepResult
  ioHistory : List IoEvent
  ioAnswers : List Byte
  deriving DecidableEq, Repr

/-- The faults of 60_exceptions.md R226. A fault ends the step with no change to any state (R229); where the model
raises one, the spec raises it (safe). -/
inductive Fault where
  /-- `UnimplementedOpcode(byte, address)` (R227). Raised by the fetch, and by the meanings of `DAA`, of the five
  undefined values and, with `UNLISTED_OPS = fault`, of the unlisted instructions. Safe: the spec raises it there. -/
  | unimplementedOpcode (op : Byte) (addr : Word)
  /-- `OutOfBoundsAccess(address)` (R228), the address an unreduced integer. Raised by a memory read or write outside
  `0 .. MEM_SIZE-1`. Safe: the spec raises it there. -/
  | outOfBoundsAccess (addr : Int)
  deriving DecidableEq, Repr

/-- Why the model has no meaning for an instruction. -/
inductive Refusal where
  /-- An instruction without a meaning yet, by its mnemonic in spec/opcode_table.json. Raised by no arm of `exec`.
  Safe: the model stops where the hardware goes on. -/
  | notModelled (mnemonic : String)
  deriving DecidableEq, Repr

/-- The outcome of a step or of one instruction. -/
abbrev Result := Host.Outcome State Fault Refusal

/-- The seven registers at reset: 0 each (R32). -/
def Regs.reset : Regs := { b := 0, c := 0, d := 0, e := 0, h := 0, l := 0, a := 0 }

/-- The five flags at reset: 0 each (R32). -/
def Flags.reset : Flags := { z := false, s := false, p := false, cy := false, ac := false }

/-- The machine after construction (R32, R251) with given parameters, memory and answers of the host: the 94 bits of the
CORE are zero, and memory holds what the host put there (`Mem0`, R253, R255). -/
def State.atReset (p : Params) (mem0 : Memory) (answers : List Byte) : State :=
  { regs := Regs.reset, sp := 0, pc := 0, inte := false, flags := Flags.reset, mem := mem0, params := p,
    result := .continued, ioHistory := [], ioAnswers := answers }

/-- The machine right after reset, with the default parameters (R6), nothing loaded into memory (log 2) and no answer
of the host listed (log 3). -/
def State.reset : State := State.atReset Params.default [] []

end Sys2Proof.Machine
end

