-- ==== Sys2Proof/Machine/Ops.lean ====
section
/-! DEFINITION. The operations over memory, registers and the program counter that the instructions share, raising a
fault, and the I/O Port. An access takes what to do next as its last argument, so that a meaning reads like the spec's
pseudocode and a fault discards every change of the step (30_encoding.md R71, 60_exceptions.md R229). -/

namespace Sys2Proof.Machine

/-! ### Memory (20_memory.md) -/

/-- What an address that the list does not name reads as. DESIGN CHOICE (unsafe for a claim about
`State.reset` alone, log 2): the spec leaves `Mem0` to the host. -/
def Memory.unlisted : Byte := 0

/-- The byte at an address (R39). -/
def Memory.read : Memory → Nat → Byte
  | [], _ => Memory.unlisted
  | c :: m, a => if c.1 = a then c.2 else Memory.read m a

/-- A cell put before the first cell of a higher address. -/
def Memory.insert : Memory → Nat → Byte → Memory
  | [], a, v => [(a, v)]
  | c :: m, a, v => if a < c.1 then (a, v) :: c :: m else c :: Memory.insert m a v

/-- The memory with no cell at an address. -/
def Memory.erase (m : Memory) (a : Nat) : Memory := m.filter fun c => c.1 != a

/-- The memory with byte `v` at address `a` (R39), in canonical form if `m` was. -/
def Memory.write (m : Memory) (a : Nat) (v : Byte) : Memory :=
  if v = Memory.unlisted then Memory.erase m a else Memory.insert (Memory.erase m a) a v

/-- Every address is at least `lo`, addresses rise strictly, and no cell holds what an unlisted address reads as. -/
def Memory.wfFrom : Nat → Memory → Bool
  | _, [] => true
  | lo, c :: m => decide (lo ≤ c.1) && c.2 != Memory.unlisted && Memory.wfFrom (c.1 + 1) m

/-- The canonical form: equal memories are equal lists. -/
def Memory.wf (m : Memory) : Bool := Memory.wfFrom 0 m

/-- Every listed address lies in the store `0 .. size-1` (R38). -/
def Memory.within (size : Nat) (m : Memory) : Bool := m.all fun c => decide (c.1 < size)

/-- The model's read of one byte of memory, with no bounds check: what a host sees at an address. -/
def State.peek (s : State) (a : Nat) : Byte := Memory.read s.mem a

/-- The state with one byte of memory replaced. -/
def State.poke (s : State) (a : Nat) (v : Byte) : State := { s with mem := Memory.write s.mem a v }

/-! ### Faults: what this hardware has in place of exception entry (60_exceptions.md R231) -/

/-- Raising a fault: control leaves the CORE, nothing is saved and nothing changes (R229, R231). There is no return from
it (R234): the host decides what happens next. -/
def raise (f : Fault) : Result := .fault f

/-- `UnimplementedOpcode(op, a0)` (R227): `op` is the opcode byte of the instruction and `a0` the value of `pc`. -/
def raiseUnimplemented (s : State) (op : Byte) : Result := raise (.unimplementedOpcode op s.pc)

/-- Whether an effective address, an integer that is not reduced modulo 65536, lies in the configured store (R38). -/
def State.inStore (s : State) (addr : Int) : Bool := decide (0 ≤ addr ∧ addr < (s.params.memSize : Int))

/-- `MemRead(addr, 1)` (R36). -/
def memRead (s : State) (addr : Int) (next : Byte → Result) : Result :=
  if s.inStore addr then next (s.peek addr.toNat) else raise (.outOfBoundsAccess addr)

/-- `MemWrite(addr, 1, v)` (R37). -/
def memWrite (s : State) (addr : Int) (v : Byte) (next : State → Result) : Result :=
  if s.inStore addr then next (s.poke addr.toNat v) else raise (.outOfBoundsAccess addr)

/-! ### Registers (10_state.md) -/

/-- `r[X]` (R11). -/
def State.reg (s : State) : Reg → Byte
  | .b => s.regs.b
  | .c => s.regs.c
  | .d => s.regs.d
  | .e => s.regs.e
  | .h => s.regs.h
  | .l => s.regs.l
  | .a => s.regs.a

/-- `r[X] <- v` on the register file (R11). -/
def Regs.set (rs : Regs) (r : Reg) (v : Byte) : Regs :=
  match r with
  | .b => { rs with b := v }
  | .c => { rs with c := v }
  | .d => { rs with d := v }
  | .e => { rs with e := v }
  | .h => { rs with h := v }
  | .l => { rs with l := v }
  | .a => { rs with a := v }

/-- `r[X] <- v` (R11). -/
def State.setReg (s : State) (r : Reg) (v : Byte) : State := { s with regs := s.regs.set r v }

/-- `rp[BC]`, `rp[DE]`, `rp[HL]` (R13), and `sp` for pair code 11 of `LXI`, `INX`, `DCX`, `DAD` (R61). -/
def State.pair (s : State) : Pair → Word
  | .bc => pair16 s.regs.b s.regs.c
  | .de => pair16 s.regs.d s.regs.e
  | .hl => pair16 s.regs.h s.regs.l
  | .sp => s.sp

/-- `rp[P] <- w` (R13), and `sp <- w` for pair code 11 (R61). -/
def State.setPair (s : State) (p : Pair) (w : Word) : State :=
  match p with
  | .bc => { s with regs := { s.regs with b := hi8 w, c := lo8 w } }
  | .de => { s with regs := { s.regs with d := hi8 w, e := lo8 w } }
  | .hl => { s with regs := { s.regs with h := hi8 w, l := lo8 w } }
  | .sp => { s with sp := w }

/-- `sp <- w`. -/
def State.setSp (s : State) (w : Word) : State := { s with sp := w }

/-- The flags replaced. -/
def State.setFlags (s : State) (f : Flags) : State := { s with flags := f }

/-- `inte <- v` (R27). -/
def State.setInte (s : State) (v : Bool) : State := { s with inte := v }

/-! ### Ending a step (R15, R71) -/

/-- `pc <- w` and `return Continue`. -/
def State.jumpTo (s : State) (w : Word) : State := { s with pc := w, result := .continued }

/-- The address `(a0 + len) mod 65536` after an instruction of `len` bytes (R15, R16). -/
def State.after (s : State) (len : Nat) : Word := s.pc + BitVec.ofNat 16 len

/-- `pc <- (a0 + len) mod 65536; return Continue`. -/
def advance (s : State) (len : Nat) : Result := .next (s.jumpTo (s.after len))

/-- A taken transfer: `pc <- target`, nothing added (R15); `return Continue`. -/
def transfer (s : State) (target : Word) : Result := .next (s.jumpTo target)

/-- `pc <- (a0 + len) mod 65536; return Halted` (R189). -/
def advanceHalted (s : State) (len : Nat) : Result := .next { s with pc := s.after len, result := .halted }

/-! ### The stack (44_stack.md) -/

/-- `push16(hi, lo)` (R130): the high byte at `sp - 1` first, then the low byte at `sp - 2`, both unreduced integers. -/
def push16 (s : State) (hi lo : Byte) (next : State → Result) : Result :=
  memWrite s ((s.sp.toNat : Int) - 1) hi fun s1 =>
  memWrite s1 ((s.sp.toNat : Int) - 2) lo fun s2 =>
  next (s2.setSp (s.sp - 2))

/-- `pop16()` (R131): the low byte from `sp`, then the high byte from the unreduced integer `sp + 1`. -/
def pop16 (s : State) (next : Byte → Byte → State → Result) : Result :=
  memRead s (s.sp.toNat : Int) fun lo =>
  memRead s ((s.sp.toNat : Int) + 1) fun hi =>
  next hi lo (s.setSp (s.sp + 2))

/-! ### The I/O Port (47_io_int_halt_nop.md R184) -/

/-- `IoRead(port)`: the next answer the host has listed, else the free value of `Config.ioRead` (log 3). -/
def State.ioAnswer (s : State) (port : Byte) : Byte :=
  match s.ioAnswers with
  | v :: _ => v
  | []     => Config.ioRead s.ioHistory port

/-- An `IoRead` done: its answer is used up and the access is recorded. -/
def ioRead (s : State) (port : Byte) (next : Byte → State → Result) : Result :=
  next (s.ioAnswer port)
    { s with ioAnswers := s.ioAnswers.tail, ioHistory := .input port (s.ioAnswer port) :: s.ioHistory }

/-- `IoWrite(port, v)`: the access is recorded; it returns nothing and cannot fail. -/
def ioWrite (s : State) (port v : Byte) (next : State → Result) : Result :=
  next { s with ioHistory := .output port v :: s.ioHistory }

/-! ### The parameter `UNLISTED_OPS` (48_unlisted.md R196, R197) -/

/-- An unlisted instruction: `UnimplementedOpcode(op, a0)` with `UNLISTED_OPS = fault`, its 8080 action with `i8080`. -/
def unlisted (s : State) (i : Instr) (action : Result) : Result :=
  match s.params.unlistedOps with
  | .fault => raiseUnimplemented s i.opcode
  | .i8080 => action

end Sys2Proof.Machine
end

