-- ==== Sys2Proof/Machine/Flags.lean ====
section
/-! DEFINITION. The flag computations (10_state.md R21 to R26), the ALU (41_arithmetic.md R90, R91; 42_logical_compare.md
R105, R112) and the conditions (45_control_transfer.md R140). -/

namespace Sys2Proof.Machine

/-- The number of set bits of a byte. -/
def popcount (v : Byte) : Nat :=
  (v.getLsbD 0).toNat + (v.getLsbD 1).toNat + (v.getLsbD 2).toNat + (v.getLsbD 3).toNat +
  (v.getLsbD 4).toNat + (v.getLsbD 5).toNat + (v.getLsbD 6).toNat + (v.getLsbD 7).toNat

/-- `parity(v)` (R21): true iff the number of set bits is even. -/
def parity (v : Byte) : Bool := popcount v % 2 == 0

/-- `flagsZSP(v)` (R22). -/
def flagsZSP (f : Flags) (v : Byte) : Flags :=
  { f with z := v == 0, s := v.getLsbD 7, p := parity v }

/-- `alu_add(x, cin)` (R90). `f.AC` is not written (R24). -/
def aluAdd (s : State) (x : Byte) (cin : Bool) : State :=
  let t : Nat := s.regs.a.toNat + x.toNat + cin.toNat
  let res : Byte := BitVec.ofNat 8 t
  (s.setFlags { flagsZSP s.flags res with cy := decide (t > 255) }).setReg .a res

/-- The flags after the unbounded difference `t` (R91, R112): `f.CY` is a borrow (R23). -/
def flagsOfDifference (f : Flags) (t : Int) : Flags :=
  { flagsZSP f (BitVec.ofInt 8 t) with cy := decide (t < 0) }

/-- `alu_sub(x, bin)` (R91). -/
def aluSub (s : State) (x : Byte) (bin : Bool) : State :=
  let t : Int := (s.regs.a.toNat : Int) - x.toNat - bin.toNat
  (s.setFlags (flagsOfDifference s.flags t)).setReg .a (BitVec.ofInt 8 t)

/-- `alu_cmp(x)` (R112): the flags of the difference, `A` not written. -/
def aluCmp (s : State) (x : Byte) : State :=
  s.setFlags (flagsOfDifference s.flags ((s.regs.a.toNat : Int) - x.toNat))

/-- `alu_logic` (R105) once `res = r[A] op x` is known. -/
def aluLogic (s : State) (res : Byte) : State :=
  (s.setFlags { flagsZSP s.flags res with cy := false }).setReg .a res

/-- The flags after an `INR` or `DCR` with result `res` (R120): `f.CY` and `f.AC` keep their values. -/
def flagsIncDec (s : State) (res : Byte) : State := s.setFlags (flagsZSP s.flags res)

/-- A rotate's effect (R123): `A` and `f.CY` written, every other flag kept. -/
def rotateResult (s : State) (a : Byte) (cy : Bool) : State :=
  (s.setFlags { s.flags with cy := cy }).setReg .a a

/-- `psw_pack()` (R25): `S Z 0 AC 0 P 1 CY` in bits 7 to 0. -/
def pswPack (f : Flags) : Byte :=
  BitVec.ofBool f.s ++ BitVec.ofBool f.z ++ 0#1 ++ BitVec.ofBool f.ac ++
  0#1 ++ BitVec.ofBool f.p ++ 1#1 ++ BitVec.ofBool f.cy

/-- `psw_unpack(b)` (R26): bits 5, 3 and 1 are ignored. -/
def pswUnpack (b : Byte) : Flags :=
  { s := b.getLsbD 7, z := b.getLsbD 6, ac := b.getLsbD 4, p := b.getLsbD 2, cy := b.getLsbD 0 }

/-- `cond(ccc)` (R140): each condition reads one flag. -/
def condHolds (f : Flags) : Cond → Bool
  | .nz => !f.z
  | .z  => f.z
  | .nc => !f.cy
  | .c  => f.cy
  | .po => !f.p
  | .pe => f.p
  | .p  => !f.s
  | .m  => f.s

end Sys2Proof.Machine
end

