-- ==== Sys2Proof/Machine/Operands.lean ====
section
/-! DEFINITION. The operand forms (30_encoding.md R59, R60, R64; 48_unlisted.md R202): a register, the memory operand
`M`, a pair as an address. Immediates are fields of `Instr` and used as they are (R64). -/

namespace Sys2Proof.Machine

/-- The address of `M`: the integer `rp[HL]`, 0 to 65535 (R58, R59). -/
def State.hlAddr (s : State) : Int := (s.pair .hl).toNat

/-- `src8(code)` (R59). -/
def src8 (s : State) (o : Operand) (next : Byte → Result) : Result :=
  match o with
  | .reg r => next (s.reg r)
  | .m     => memRead s s.hlAddr next

/-- `dst8(code, v)` (R60); the address of `M` is `rp[HL]` as it is in the state it is given. -/
def dst8 (s : State) (o : Operand) (v : Byte) (next : State → Result) : Result :=
  match o with
  | .reg r => next (s.setReg r v)
  | .m     => memWrite s s.hlAddr v next

/-- The address an `LDAX` or `STAX` uses (R202, R203). -/
def State.indirectAddr (s : State) : IndirectPair → Int
  | .bc => (s.pair .bc).toNat
  | .de => (s.pair .de).toNat

/-- The high and low register of a pair of `PUSH` (R132). -/
def State.stackPair (s : State) : StackPair → Byte × Byte
  | .bc => (s.regs.b, s.regs.c)
  | .de => (s.regs.d, s.regs.e)
  | .hl => (s.regs.h, s.regs.l)

/-- The pair of a `POP` written, high and low register (R133). -/
def State.setStackPair (s : State) (p : StackPair) (hi lo : Byte) : State :=
  match p with
  | .bc => (s.setReg .b hi).setReg .c lo
  | .de => (s.setReg .d hi).setReg .e lo
  | .hl => (s.setReg .h hi).setReg .l lo

end Sys2Proof.Machine
end

