-- ==== Sys2Proof/Machine/Arithmetic.lean ====
section
/-! DEFINITION. 41_arithmetic.md: 8-bit add and subtract. -/

namespace Sys2Proof.Machine

/-- `ADD r`, `ADD M` (R92). -/
def execAdd (src : Operand) (s : State) : Result := src8 s src fun x => advance (aluAdd s x false) 1

/-- `ADC r`, `ADC M` (R93). -/
def execAdc (src : Operand) (s : State) : Result := src8 s src fun x => advance (aluAdd s x s.flags.cy) 1

/-- `SUB r`, `SUB M` (R94). -/
def execSub (src : Operand) (s : State) : Result := src8 s src fun x => advance (aluSub s x false) 1

/-- `SBB r`, `SBB M` (R95). -/
def execSbb (src : Operand) (s : State) : Result := src8 s src fun x => advance (aluSub s x s.flags.cy) 1

/-- `ADI d8` (R96). -/
def execAdi (v : Byte) (s : State) : Result := advance (aluAdd s v false) 2

/-- `ACI d8` (R97). -/
def execAci (v : Byte) (s : State) : Result := advance (aluAdd s v s.flags.cy) 2

/-- `SUI d8` (R98). -/
def execSui (v : Byte) (s : State) : Result := advance (aluSub s v false) 2

/-- `SBI d8` (R99). -/
def execSbi (v : Byte) (s : State) : Result := advance (aluSub s v s.flags.cy) 2

end Sys2Proof.Machine
end

