-- ==== Sys2Proof/Machine/ControlTransfer.lean ====
section
/-! DEFINITION. 45_control_transfer.md: jumps, calls and returns. -/

namespace Sys2Proof.Machine

/-! ### Shared forms (R141) -/

/-- A jump when `taken`, else past the three bytes of the instruction. -/
def jumpIf (taken : Bool) (addr : Word) (s : State) : Result :=
  if taken then transfer s addr else advance s 3

/-- The unconditional call (R151): the return address `(a0 + 3) mod 65536` pushed, `pc` at the target. -/
def callTo (addr : Word) (s : State) : Result :=
  push16 s (hi8 (s.after 3)) (lo8 (s.after 3)) fun s1 => transfer s1 addr

/-- A call when `taken`, else past the three bytes of the instruction, the stack not touched. -/
def callIf (taken : Bool) (addr : Word) (s : State) : Result :=
  if taken then callTo addr s else advance s 3

/-- The unconditional return (R160): a pop into `pc`. -/
def returnNow (s : State) : Result := pop16 s fun hi lo s1 => transfer s1 (pair16 hi lo)

/-- A return when `taken`, else past the one byte of the instruction, the stack not read. -/
def returnIf (taken : Bool) (s : State) : Result :=
  if taken then returnNow s else advance s 1

/-! ### Jumps -/

/-- `JMP addr` (R142). -/
def execJmp (addr : Word) (s : State) : Result := transfer s addr

/-- `JNZ addr` (R143). -/
def execJnz (addr : Word) (s : State) : Result := jumpIf (condHolds s.flags .nz) addr s

/-- `JZ addr` (R144). -/
def execJz (addr : Word) (s : State) : Result := jumpIf (condHolds s.flags .z) addr s

/-- `JNC addr` (R145). -/
def execJnc (addr : Word) (s : State) : Result := jumpIf (condHolds s.flags .nc) addr s

/-- `JC addr` (R146). -/
def execJc (addr : Word) (s : State) : Result := jumpIf (condHolds s.flags .c) addr s

/-- `JPO addr` (R147). -/
def execJpo (addr : Word) (s : State) : Result := jumpIf (condHolds s.flags .po) addr s

/-- `JPE addr` (R148). -/
def execJpe (addr : Word) (s : State) : Result := jumpIf (condHolds s.flags .pe) addr s

/-- `JP addr` (R149). -/
def execJp (addr : Word) (s : State) : Result := jumpIf (condHolds s.flags .p) addr s

/-- `JM addr` (R150). -/
def execJm (addr : Word) (s : State) : Result := jumpIf (condHolds s.flags .m) addr s

/-! ### Calls -/

/-- `CALL addr` (R151). -/
def execCall (addr : Word) (s : State) : Result := callTo addr s

/-- `CNZ addr` (R152). -/
def execCnz (addr : Word) (s : State) : Result := callIf (condHolds s.flags .nz) addr s

/-- `CZ addr` (R153). -/
def execCz (addr : Word) (s : State) : Result := callIf (condHolds s.flags .z) addr s

/-- `CNC addr` (R154). -/
def execCnc (addr : Word) (s : State) : Result := callIf (condHolds s.flags .nc) addr s

/-- `CC addr` (R155). -/
def execCc (addr : Word) (s : State) : Result := callIf (condHolds s.flags .c) addr s

/-- `CPO addr` (R156). -/
def execCpo (addr : Word) (s : State) : Result := callIf (condHolds s.flags .po) addr s

/-- `CPE addr` (R157). -/
def execCpe (addr : Word) (s : State) : Result := callIf (condHolds s.flags .pe) addr s

/-- `CP addr` (R158). -/
def execCp (addr : Word) (s : State) : Result := callIf (condHolds s.flags .p) addr s

/-- `CM addr` (R159). -/
def execCm (addr : Word) (s : State) : Result := callIf (condHolds s.flags .m) addr s

/-! ### Returns -/

/-- `RET` (R160). -/
def execRet (s : State) : Result := returnNow s

/-- `RNZ` (R161). -/
def execRnz (s : State) : Result := returnIf (condHolds s.flags .nz) s

/-- `RZ` (R162). -/
def execRz (s : State) : Result := returnIf (condHolds s.flags .z) s

/-- `RNC` (R163). -/
def execRnc (s : State) : Result := returnIf (condHolds s.flags .nc) s

/-- `RC` (R164). -/
def execRc (s : State) : Result := returnIf (condHolds s.flags .c) s

/-- `RPO` (R165). -/
def execRpo (s : State) : Result := returnIf (condHolds s.flags .po) s

/-- `RPE` (R166). -/
def execRpe (s : State) : Result := returnIf (condHolds s.flags .pe) s

/-- `RP` (R167). -/
def execRp (s : State) : Result := returnIf (condHolds s.flags .p) s

/-- `RM` (R168). -/
def execRm (s : State) : Result := returnIf (condHolds s.flags .m) s

end Sys2Proof.Machine
end

