-- ==== Sys2Proof/Machine/Exchange.lean ====
section
/-! DEFINITION. 46_exchange_sp_pc.md: `XCHG`, `XTHL`, `SPHL`, `PCHL`. -/

namespace Sys2Proof.Machine

/-- `XCHG` (R176): every right-hand side is an old value. -/
def execXchg (s : State) : Result :=
  advance ((s.setPair .hl (s.pair .de)).setPair .de (s.pair .hl)) 1

/-- `XTHL` (R177): both reads before both writes, `L` with the byte at `sp`, `H` with the byte at `sp + 1`. -/
def execXthl (s : State) : Result :=
  memRead s (s.sp.toNat : Int) fun lo =>
  memRead s ((s.sp.toNat : Int) + 1) fun hi =>
  memWrite s (s.sp.toNat : Int) s.regs.l fun s1 =>
  memWrite s1 ((s.sp.toNat : Int) + 1) s.regs.h fun s2 =>
  advance ((s2.setReg .l lo).setReg .h hi) 1

/-- `SPHL` (R178). -/
def execSphl (s : State) : Result := advance (s.setSp (s.pair .hl)) 1

/-- `PCHL` (R179): a taken transfer, nothing added. -/
def execPchl (s : State) : Result := transfer s (s.pair .hl)

end Sys2Proof.Machine
end

