-- ==== Sys2Proof/Machine/IncDecRotate.lean ====
section
/-! DEFINITION. 43_incdec_rotate.md: increment, decrement, rotate. -/

namespace Sys2Proof.Machine

/-- `INR r`, `INR M` (R121). -/
def execInr (dst : Operand) (s : State) : Result :=
  src8 s dst fun x => dst8 (flagsIncDec s (x + 1)) dst (x + 1) fun s1 => advance s1 1

/-- `DCR r`, `DCR M` (R122). -/
def execDcr (dst : Operand) (s : State) : Result :=
  src8 s dst fun x => dst8 (flagsIncDec s (x - 1)) dst (x - 1) fun s1 => advance s1 1

/-- A flag bit as a byte, 0 or 1. -/
def bitByte (c : Bool) : Byte := BitVec.ofNat 8 c.toNat

/-- `RLC` (R124): bit 7 goes to carry and to bit 0. -/
def execRlc (s : State) : Result :=
  let a := s.regs.a
  advance (rotateResult s (a <<< 1 ||| bitByte (a.getLsbD 7)) (a.getLsbD 7)) 1

/-- `RRC` (R125): bit 0 goes to carry and to bit 7. -/
def execRrc (s : State) : Result :=
  let a := s.regs.a
  advance (rotateResult s (a >>> 1 ||| bitByte (a.getLsbD 0) <<< 7) (a.getLsbD 0)) 1

/-- `RAL` (R126): the old carry enters at bit 0. -/
def execRal (s : State) : Result :=
  let a := s.regs.a
  advance (rotateResult s (a <<< 1 ||| bitByte s.flags.cy) (a.getLsbD 7)) 1

/-- `RAR` (R127): the old carry enters at bit 7. -/
def execRar (s : State) : Result :=
  let a := s.regs.a
  advance (rotateResult s (a >>> 1 ||| bitByte s.flags.cy <<< 7) (a.getLsbD 0)) 1

end Sys2Proof.Machine
end

