-- ==== Sys2Proof/Machine/IoSystem.lean ====
section
/-! DEFINITION. 47_io_int_halt_nop.md: `IN`, `OUT`, `EI`, `DI`, `HLT`, `NOP` and its seven aliases. -/

namespace Sys2Proof.Machine

/-- `IN port` (R185). -/
def execInPort (port : Byte) (s : State) : Result := ioRead s port fun v s1 => advance (s1.setReg .a v) 2

/-- `OUT port` (R186). -/
def execOutPort (port : Byte) (s : State) : Result := ioWrite s port s.regs.a fun s1 => advance s1 2

/-- `EI` (R187): the bit is set at this step's commit, with no delay. -/
def execEi (s : State) : Result := advance (s.setInte true) 1

/-- `DI` (R188). -/
def execDi (s : State) : Result := advance (s.setInte false) 1

/-- `HLT` (R189): `pc` past the instruction, the step returns `Halted`, no halted state is kept. -/
def execHlt (s : State) : Result := advanceHalted s 1

/-- `NOP` (R191). -/
def execNop (s : State) : Result := advance s 1

/-- The undefined values `08 10 18 20 28 30 38` (R192): as `NOP`, whichever of them it is. -/
def execNopAlias (_x : BitVec 3) (s : State) : Result := advance s 1

end Sys2Proof.Machine
end

