-- ==== Sys2Proof/Machine/LoadMove.lean ====
section
/-! DEFINITION. 40_load_move.md: `MVI`, `LXI`, `MOV`. -/

namespace Sys2Proof.Machine

/-- `MVI r,d8` and `MVI M,d8` (R81). -/
def execMvi (dst : Operand) (v : Byte) (s : State) : Result :=
  dst8 s dst v fun s1 => advance s1 2

/-- `LXI rp,d16` (R82). -/
def execLxi (p : Pair) (v : Word) (s : State) : Result := advance (s.setPair p v) 3

/-- `MOV r1,r2` (R83), `MOV r,M` (R84), `MOV M,r` (R85). -/
def execMov (dst src : Operand) (s : State) : Result :=
  src8 s src fun v => dst8 s dst v fun s1 => advance s1 1

end Sys2Proof.Machine
end

