-- ==== Sys2Proof/Machine/Logical.lean ====
section
/-! DEFINITION. 42_logical_compare.md: logic and compare. -/

namespace Sys2Proof.Machine

/-- `ANA r`, `ANA M` (R106). -/
def execAna (src : Operand) (s : State) : Result := src8 s src fun x => advance (aluLogic s (s.regs.a &&& x)) 1

/-- `XRA r`, `XRA M` (R107). -/
def execXra (src : Operand) (s : State) : Result := src8 s src fun x => advance (aluLogic s (s.regs.a ^^^ x)) 1

/-- `ORA r`, `ORA M` (R108). -/
def execOra (src : Operand) (s : State) : Result := src8 s src fun x => advance (aluLogic s (s.regs.a ||| x)) 1

/-- `ANI d8` (R109). -/
def execAni (v : Byte) (s : State) : Result := advance (aluLogic s (s.regs.a &&& v)) 2

/-- `XRI d8` (R110). -/
def execXri (v : Byte) (s : State) : Result := advance (aluLogic s (s.regs.a ^^^ v)) 2

/-- `ORI d8` (R111). -/
def execOri (v : Byte) (s : State) : Result := advance (aluLogic s (s.regs.a ||| v)) 2

/-- `CMP r`, `CMP M` (R113). -/
def execCmp (src : Operand) (s : State) : Result := src8 s src fun x => advance (aluCmp s x) 1

/-- `CPI d8` (R114). -/
def execCpi (v : Byte) (s : State) : Result := advance (aluCmp s v) 2

end Sys2Proof.Machine
end

