-- ==== Sys2Proof/Machine/Stack.lean ====
section
/-! DEFINITION. 44_stack.md: `PUSH`, `POP`, `PUSH PSW`, `POP PSW`. -/

namespace Sys2Proof.Machine

/-- `PUSH rp` (R132). -/
def execPush (p : StackPair) (s : State) : Result :=
  push16 s (s.stackPair p).1 (s.stackPair p).2 fun s1 => advance s1 1

/-- `POP rp` (R133). -/
def execPop (p : StackPair) (s : State) : Result :=
  pop16 s fun hi lo s1 => advance (s1.setStackPair p hi lo) 1

/-- `PUSH PSW` (R134): `A` at the higher address, the flag byte at the lower. -/
def execPushPsw (s : State) : Result :=
  push16 s s.regs.a (pswPack s.flags) fun s1 => advance s1 1

/-- `POP PSW` (R135). -/
def execPopPsw (s : State) : Result :=
  pop16 s fun hi lo s1 => advance ((s1.setFlags (pswUnpack lo)).setReg .a hi) 1

end Sys2Proof.Machine
end

