-- ==== Sys2Proof/Machine/Unlisted.lean ====
section
/-! DEFINITION. 48_unlisted.md: the instructions the source does not enumerate, under both settings of `UNLISTED_OPS`
(R196, R197), and the values that always fault (R209, R214). -/

namespace Sys2Proof.Machine

/-- `LDA addr` (R198). -/
def execLda (addr : Word) (s : State) : Result :=
  unlisted s (.lda addr) (memRead s (addr.toNat : Int) fun v => advance (s.setReg .a v) 3)

/-- `STA addr` (R199). -/
def execSta (addr : Word) (s : State) : Result :=
  unlisted s (.sta addr) (memWrite s (addr.toNat : Int) s.regs.a fun s1 => advance s1 3)

/-- `LHLD addr` (R200): `addr + 1` is an unreduced integer. -/
def execLhld (addr : Word) (s : State) : Result :=
  unlisted s (.lhld addr)
    (memRead s (addr.toNat : Int) fun lo =>
     memRead s ((addr.toNat : Int) + 1) fun hi =>
     advance ((s.setReg .l lo).setReg .h hi) 3)

/-- `SHLD addr` (R201). -/
def execShld (addr : Word) (s : State) : Result :=
  unlisted s (.shld addr)
    (memWrite s (addr.toNat : Int) s.regs.l fun s1 =>
     memWrite s1 ((addr.toNat : Int) + 1) s.regs.h fun s2 =>
     advance s2 3)

/-- `LDAX B`, `LDAX D` (R202). -/
def execLdax (p : IndirectPair) (s : State) : Result :=
  unlisted s (.ldax p) (memRead s (s.indirectAddr p) fun v => advance (s.setReg .a v) 1)

/-- `STAX B`, `STAX D` (R203). -/
def execStax (p : IndirectPair) (s : State) : Result :=
  unlisted s (.stax p) (memWrite s (s.indirectAddr p) s.regs.a fun s1 => advance s1 1)

/-- `INX rp` (R204). -/
def execInx (p : Pair) (s : State) : Result :=
  unlisted s (.inx p) (advance (s.setPair p (s.pair p + 1)) 1)

/-- `DCX rp` (R205). -/
def execDcx (p : Pair) (s : State) : Result :=
  unlisted s (.dcx p) (advance (s.setPair p (s.pair p - 1)) 1)

/-- `DAD rp` (R206): the integer sum, `f.CY` only. -/
def execDad (p : Pair) (s : State) : Result :=
  let t : Nat := (s.pair .hl).toNat + (s.pair p).toNat
  unlisted s (.dad p)
    (advance ((s.setFlags { s.flags with cy := decide (t > 65535) }).setPair .hl (BitVec.ofNat 16 t)) 1)

/-- `DAA` (R209): always `UnimplementedOpcode(0x27, a0)`, under both settings. -/
def execDaa (s : State) : Result := raiseUnimplemented s (Instr.opcode .daa)

/-- `CMA` (R210). -/
def execCma (s : State) : Result := unlisted s .cma (advance (s.setReg .a (s.regs.a ^^^ 0xFF)) 1)

/-- `STC` (R211). -/
def execStc (s : State) : Result := unlisted s .stc (advance (s.setFlags { s.flags with cy := true }) 1)

/-- `CMC` (R212). -/
def execCmc (s : State) : Result :=
  unlisted s .cmc (advance (s.setFlags { s.flags with cy := !s.flags.cy }) 1)

/-- `RST n` (R213): the return address `(a0 + 1) mod 65536` pushed, `pc` at `8 * nnn`. -/
def execRst (n : BitVec 3) (s : State) : Result :=
  unlisted s (.rst n)
    (push16 s (hi8 (s.after 1)) (lo8 (s.after 1)) fun s1 => transfer s1 (BitVec.ofNat 16 (8 * n.toNat)))

/-- The undefined value `CB` (R214): always `UnimplementedOpcode`. -/
def execJmpAlias (addr : Word) (s : State) : Result := raiseUnimplemented s (Instr.opcode (.jmpAlias addr))

/-- The undefined value `D9` (R214): always `UnimplementedOpcode`. -/
def execRetAlias (s : State) : Result := raiseUnimplemented s (Instr.opcode .retAlias)

/-- The undefined values `DD`, `ED`, `FD` (R214): always `UnimplementedOpcode`. -/
def execCallAlias (x : BitVec 2) (addr : Word) (s : State) : Result :=
  raiseUnimplemented s (Instr.opcode (.callAlias x addr))

end Sys2Proof.Machine
end

