-- ==== Sys2Proof/Machine/Fetch.lean ====
section
/-! DEFINITION. Fetching the instruction at `pc` (30_encoding.md R70), and placing one there from outside. -/

namespace Sys2Proof.Machine

/-- Fetch and decode (R70): the opcode byte; `UnimplementedOpcode` before any operand byte is read (R68, R233); then the
operand bytes at the unreduced integers `a0 + 1` and `a0 + 2`. -/
def fetch (s : State) (run : Instr → Result) : Result :=
  memRead s (s.pc.toNat : Int) fun op =>
  if faultsUnimplemented s.params.unlistedOps op then raiseUnimplemented s op
  else match opForm op with
    | .f1 i => run i
    | .f2 mk => memRead s ((s.pc.toNat : Int) + 1) fun b2 => run (mk b2)
    | .f3 mk =>
      memRead s ((s.pc.toNat : Int) + 1) fun b2 =>
      memRead s ((s.pc.toNat : Int) + 2) fun b3 => run (mk (pair16 b3 b2))

/-- Bytes stored from an address upward, those outside the store dropped: a host's load of a program (R253, R258). -/
def State.load (s : State) (a : Nat) : List Byte → State
  | [] => s
  | v :: vs => State.load (if s.inStore (a : Int) then s.poke a v else s) (a + 1) vs

end Sys2Proof.Machine
end

