-- ==== Sys2Proof/Machine/Step.lean ====
section
/-! DEFINITION. The step (30_encoding.md R71): fetch the instruction at `pc` and run it. -/

namespace Sys2Proof.Machine

/-- `Step()` (R71). -/
def step (s : State) : Host.Outcome State Fault Refusal := fetch s fun i => exec i s

/-- The instruction whose bits are `w` stored at `pc`, where `step` fetches; every byte of it above `nbits` is 0.
It stands for the host's program load (R253, log 5). -/
def State.withFetchWord (s : State) (nbits w : Nat) : State := s.load s.pc.toNat (tableBytes nbits w)

end Sys2Proof.Machine
end

