-- ==== Sys2Proof/Machine/HostPort.lean ====
section
/-! DEFINITION. What the host may do between two steps (70_reset_and_hazards.md R258), as explicit events. -/

namespace Sys2Proof.Machine

/-- The host actions of R258's table that change something. -/
inductive HostAction where
  /-- Construct the CORE anew (R251). -/
  | construct
  /-- Write a register. -/
  | setReg (r : Reg) (v : Byte)
  /-- Write `sp`. -/
  | setSp (w : Word)
  /-- Write `pc`. -/
  | setPc (w : Word)
  /-- Write `inte`. -/
  | setInte (v : Bool)
  /-- Write the five flags. -/
  | setFlags (f : Flags)
  /-- Write one byte of memory inside the store (program load); an address outside it is no memory. -/
  | writeByte (a : Nat) (v : Byte)
  /-- Decide the answers to the next `IoRead`s (R184). -/
  | answer (vs : List Byte)
  deriving DecidableEq, Repr

/-- The state after a host action (R258: "the next step sees the new value; nothing else changes"). Constructing the
CORE zeroes its 94 bits and touches neither memory nor the I/O Port (R251, R253). -/
def State.host (s : State) : HostAction → State
  | .construct     => { s with regs := Regs.reset, sp := 0, pc := 0, inte := false, flags := Flags.reset,
                               result := .continued }
  | .setReg r v    => s.setReg r v
  | .setSp w       => s.setSp w
  | .setPc w       => { s with pc := w }
  | .setInte v     => s.setInte v
  | .setFlags f    => s.setFlags f
  | .writeByte a v => s.load a [v]
  | .answer vs     => { s with ioAnswers := vs }

end Sys2Proof.Machine
end

