-- ==== Sys2Proof/Safety.lean ====
section
/-! DEFINITION. What statements are made in terms of: the invariant of the state, the four results of a step
(60_exceptions.md R226), and the end of a run (70_reset_and_hazards.md R259). -/

namespace Sys2Proof.Machine

/-- The invariant: memory is in its canonical form and lists only addresses of the store `0 .. MEM_SIZE-1` (R38). -/
def State.Inv (s : State) : Prop := Memory.wf s.mem = true ∧ Memory.within s.params.memSize s.mem = true

/-- How a run ended (R259). `n` is the number of instructions executed (R257). -/
inductive RunEnd where
  /-- Normally: the last step returned `Halted`; `s` is the state it left. -/
  | halted (s : State) (n : Nat)
  /-- Badly: a step faulted; `s` is the state before that step, which the fault left as it was (R229). -/
  | faulted (f : Fault) (s : State) (n : Nat)
  /-- A step was refused by the model; `s` is the state before it. -/
  | refused (r : Refusal) (s : State) (n : Nat)
  /-- Every step of the budget returned `Continue`: neither a good nor a bad end. -/
  | outOfFuel (s : State) (n : Nat)
  deriving DecidableEq, Repr

/-- A run with a step budget (R259), counting from `n` instructions already executed: it ends at the first step whose
result is not `Continue`. The mark of a fault is the constructor `faulted`, outside the CORE (R232). -/
def runFrom (n : Nat) : Nat → State → RunEnd
  | 0, s => .outOfFuel s n
  | fuel + 1, s =>
    match step s with
    | .next t =>
      match t.result with
      | .continued => runFrom (n + 1) fuel t
      | .halted => .halted t (n + 1)
    | .fault f => .faulted f s n
    | .refused r => .refused r s n

/-- A run of at most `fuel` steps (R259). -/
def run (fuel : Nat) (s : State) : RunEnd := runFrom 0 fuel s

/-- A run has ended badly (R259, R232). -/
def RunEnd.bad : RunEnd → Bool
  | .faulted _ _ _ | .refused _ _ _ => true
  | .halted _ _ | .outOfFuel _ _ => false

/-- No step of a run of at most `fuel` steps faults: what a claim about a program has to prove (R232). -/
def SafeFor (fuel : Nat) (s : State) : Prop := (run fuel s).bad = false

end Sys2Proof.Machine
end

