-- ==== Sys2Proof/Certificates/Slice0/Obligations.lean ====
section
/-! DEFINITION. The statements for the provers. The names under `Sys2Proof.Spec` restate the spec's words over the fields
of `State` and over `State.peek`, the read of one byte of memory, apart from the definitions the meanings use. Every
opcode value in them is the one the rule gives; the spec supplies them from general knowledge by its own decisions
D3, D4 (93 G1 to G6, log 6).
A successor of `pc` is reduced modulo 65536 by the spec's own decision D11 (log 10). -/

namespace Sys2Proof.Spec

open Sys2Proof.Machine

/-! ### Registers, operands, encodings -/

/-- `r[X]` read off the fields (10_state.md R11). -/
def regVal (s : State) : Reg → Byte
  | .b => s.regs.b
  | .c => s.regs.c
  | .d => s.regs.d
  | .e => s.regs.e
  | .h => s.regs.h
  | .l => s.regs.l
  | .a => s.regs.a

/-- `rp[BC]`, `rp[DE]`, `rp[HL]` as numbers, "pair-value = high<<8 | low" (R13), and `sp` for pair code 11 (R61). -/
def pairVal (s : State) : Pair → Nat
  | .bc => s.regs.b.toNat * 256 + s.regs.c.toNat
  | .de => s.regs.d.toNat * 256 + s.regs.e.toNat
  | .hl => s.regs.h.toNat * 256 + s.regs.l.toNat
  | .sp => s.sp.toNat

/-- The operand a register code selects, read (R58, R59). -/
def operandVal (s : State) : Operand → Byte
  | .reg r => regVal s r
  | .m     => s.peek (pairVal s .hl)

/-- The register codes (R58) as numbers. -/
def regCode : Operand → Nat
  | .reg .b => 0
  | .reg .c => 1
  | .reg .d => 2
  | .reg .e => 3
  | .reg .h => 4
  | .reg .l => 5
  | .m      => 6
  | .reg .a => 7

/-- The pair codes (R61) as numbers. -/
def pairCode : Pair → Nat
  | .bc => 0
  | .de => 1
  | .hl => 2
  | .sp => 3

/-- The pair a `PUSH` or `POP` names, among the pairs. -/
def ofStack : StackPair → Pair
  | .bc => .bc
  | .de => .de
  | .hl => .hl

/-- The pair an `LDAX` or `STAX` names, among the pairs. -/
def ofIndirect : IndirectPair → Pair
  | .bc => .bc
  | .de => .de

/-- A byte, by its number. -/
def byte (n : Nat) : Byte := BitVec.ofNat 8 n

/-- The bytes of a 16-bit operand, the low byte first (R64). -/
def lowHigh (w : Word) : List Byte := [byte (w.toNat % 256), byte (w.toNat / 256)]

/-- The sequential successor `(a0 + len) mod 65536` of the instruction at `pc` (R15, R16). -/
def nextPc (s : State) (len : Nat) : Word := BitVec.ofNat 16 (s.pc.toNat + len)

/-- The operand fetch of an opcode value of length `len` (R70): a byte of the instruction at `MEM_SIZE` or above ends the
step with that address, the first one outside the store. -/
def OperandFetchFaults (op : Byte) (len : Nat) : Prop :=
  ∀ s : State, s.peek s.pc.toNat = op → s.params.memSize < s.pc.toNat + len →
    step s = .fault (.outOfBoundsAccess s.params.memSize)

/-! ### What changed -/

/-- Nothing but `pc` and the result of the step: the next instruction in sequence. -/
def stepped (s : State) (len : Nat) : State := { s with pc := nextPc s len, result := .continued }

/-- The registers of `t` are those of `s` except `r`, which holds `v`. -/
def OnlyReg (s t : State) (r : Reg) (v : Byte) : Prop :=
  regVal t r = v ∧ ∀ r', r' ≠ r → regVal t r' = regVal s r'

/-- Every byte of memory reads as before except the one at `a`, which reads `v`. -/
def OnlyByte (s t : State) (a : Nat) (v : Byte) : Prop :=
  t.peek a = v ∧ ∀ x, x ≠ a → t.peek x = s.peek x

/-- Every byte of memory reads as before except the two at `a` and `b`, which read `v` and `w`. -/
def OnlyTwoBytes (s t : State) (a : Nat) (v : Byte) (b : Nat) (w : Byte) : Prop :=
  t.peek a = v ∧ t.peek b = w ∧ ∀ x, x ≠ a → x ≠ b → t.peek x = s.peek x

/-- An operand written (R60): the register, or the byte at `rp[HL]` as it was; nothing else, but for the flags `f`, `pc`
and the result of the step. -/
def WritesOperand (s t : State) (o : Operand) (v : Byte) (f : Flags) (len : Nat) : Prop :=
  match o with
  | .reg r => OnlyReg s t r v ∧ t = { stepped s len with regs := t.regs, flags := f }
  | .m     => OnlyByte s t (pairVal s .hl) v ∧ t = { stepped s len with mem := t.mem, flags := f }

/-! ### Flags -/

/-- `popcount` (R7). -/
def bitCount (v : Byte) : Nat := ((List.range 8).filter fun i => v.getLsbD i).length

/-- `Z`, `S` and `P` describe the 8-bit result `res` (R22). -/
def ZspOf (f : Flags) (res : Byte) : Prop :=
  (f.z = true ↔ res.toNat = 0) ∧ (f.s = true ↔ 128 ≤ res.toNat) ∧ (f.p = true ↔ bitCount res % 2 = 0)

/-- Only `A`, the flags other than `AC`, `pc` and the result of the step changed. -/
def OnlyAccumulatorAndFlags (s t : State) (len : Nat) : Prop :=
  t = { stepped s len with regs := { s.regs with a := t.regs.a }, flags := { t.flags with ac := s.flags.ac } }

/-- `alu_add(x, cin)` (R90). -/
def AddEffect (s t : State) (x : Byte) (cin : Bool) (len : Nat) : Prop :=
  t.regs.a.toNat = (s.regs.a.toNat + x.toNat + cin.toNat) % 256 ∧
  (t.flags.cy = true ↔ 255 < s.regs.a.toNat + x.toNat + cin.toNat) ∧
  ZspOf t.flags t.regs.a ∧ OnlyAccumulatorAndFlags s t len

/-- `alu_sub(x, bin)` (R91): carry means borrow, `A < x + bin` with the subtrahend an unbounded integer. -/
def SubEffect (s t : State) (x : Byte) (bin : Bool) (len : Nat) : Prop :=
  (t.regs.a.toNat : Int) = ((s.regs.a.toNat : Int) - x.toNat - bin.toNat) % 256 ∧
  (t.flags.cy = true ↔ s.regs.a.toNat < x.toNat + bin.toNat) ∧
  ZspOf t.flags t.regs.a ∧ OnlyAccumulatorAndFlags s t len

/-- `alu_logic` (R105), the operation given on one bit. -/
def LogicEffect (s t : State) (op : Bool → Bool → Bool) (x : Byte) (len : Nat) : Prop :=
  (∀ n, n < 8 → t.regs.a.getLsbD n = op (s.regs.a.getLsbD n) (x.getLsbD n)) ∧
  t.flags.cy = false ∧ ZspOf t.flags t.regs.a ∧ OnlyAccumulatorAndFlags s t len

/-- `alu_cmp(x)` (R112): the flags of the difference, `A` kept. -/
def CompareEffect (s t : State) (x : Byte) (len : Nat) : Prop :=
  (t.flags.z = true ↔ s.regs.a = x) ∧ (t.flags.cy = true ↔ s.regs.a.toNat < x.toNat) ∧
  ZspOf t.flags (byte (s.regs.a.toNat + 256 - x.toNat)) ∧
  t = { stepped s len with flags := { t.flags with ac := s.flags.ac } }

/-- A rotate (R123): bit `n` of the new `A` is `bit n`, the carry is `cy`, nothing else changes. -/
def RotateEffect (s t : State) (bit : Nat → Bool) (cy : Bool) : Prop :=
  (∀ n, n < 8 → t.regs.a.getLsbD n = bit n) ∧
  t = { stepped s 1 with regs := { s.regs with a := t.regs.a }, flags := { s.flags with cy := cy } }

/-! ### The stack and control transfer -/

/-- Two bytes pushed (R130): the high byte at `sp - 1`, the low byte at `sp - 2`, `sp` down by 2. -/
def Pushed (s t : State) (hi lo : Nat) : Prop :=
  t.sp.toNat + 2 = s.sp.toNat ∧ OnlyTwoBytes s t (s.sp.toNat - 1) (byte hi) (s.sp.toNat - 2) (byte lo)

/-- `sp` after a pop (R131): up by 2, reduced modulo 65536. -/
def poppedSp (s : State) : Word := BitVec.ofNat 16 (s.sp.toNat + 2)

/-- The word a pop takes (R131): the low byte from `sp`, the high byte from `sp + 1`. -/
def topWord (s : State) : Word :=
  BitVec.ofNat 16 (s.peek s.sp.toNat).toNat + BitVec.ofNat 16 ((s.peek (s.sp.toNat + 1)).toNat * 256)

/-- `cond(ccc)` (R140): one flag each. -/
def taken (f : Flags) : Cond → Bool
  | .nz => f.z == false
  | .z  => f.z == true
  | .nc => f.cy == false
  | .c  => f.cy == true
  | .po => f.p == false
  | .pe => f.p == true
  | .p  => f.s == false
  | .m  => f.s == true

/-- The condition codes (R62) as numbers. -/
def condCode : Cond → Nat
  | .nz => 0
  | .z  => 1
  | .nc => 2
  | .c  => 3
  | .po => 4
  | .pe => 5
  | .p  => 6
  | .m  => 7

/-- `JNZ JZ JNC JC JPO JPE JP JM`. -/
def jumpOn : Cond → Word → Instr
  | .nz => .jnz
  | .z  => .jz
  | .nc => .jnc
  | .c  => .jc
  | .po => .jpo
  | .pe => .jpe
  | .p  => .jp
  | .m  => .jm

/-- `CNZ CZ CNC CC CPO CPE CP CM`. -/
def callOn : Cond → Word → Instr
  | .nz => .cnz
  | .z  => .cz
  | .nc => .cnc
  | .c  => .cc
  | .po => .cpo
  | .pe => .cpe
  | .p  => .cp
  | .m  => .cm

/-- `RNZ RZ RNC RC RPO RPE RP RM`. -/
def returnOn : Cond → Instr
  | .nz => .rnz
  | .z  => .rz
  | .nc => .rnc
  | .c  => .rc
  | .po => .rpo
  | .pe => .rpe
  | .p  => .rp
  | .m  => .rm

/-- A taken call of an instruction of `len` bytes (R151, R213): the return address pushed, `pc` at the target; with
`sp < 2` it faults with address -1. -/
def Calls (i : Instr) (s : State) (target : Word) (len : Nat) : Prop :=
  (2 ≤ s.sp.toNat → ∃ t, exec i s = .next t ∧
    Pushed s t ((nextPc s len).toNat / 256) ((nextPc s len).toNat % 256) ∧
    t = { s with sp := t.sp, mem := t.mem, pc := target, result := .continued }) ∧
  (s.sp.toNat < 2 → exec i s = .fault (.outOfBoundsAccess (-1)))

/-- A taken return (R160): the popped word in `pc`, nothing added; it faults when `sp + 1` lies outside the store. -/
def Returns (i : Instr) (s : State) : Prop :=
  (s.sp.toNat + 1 < s.params.memSize →
    exec i s = .next { s with sp := poppedSp s, pc := topWord s, result := .continued }) ∧
  (s.params.memSize ≤ s.sp.toNat + 1 → exec i s = .fault (.outOfBoundsAccess (s.sp.toNat + 1)))

/-- An unlisted instruction with `UNLISTED_OPS = fault` (R197). -/
def FaultsUnlisted (i : Instr) (op : Nat) : Prop :=
  ∀ s : State, s.params.unlistedOps = .fault → exec i s = .fault (.unimplementedOpcode (byte op) s.pc)

/-- The operand fetch of an unlisted opcode value of length 3 with `UNLISTED_OPS = i8080` (R70). -/
def UnlistedFetchFaults (op : Byte) : Prop :=
  ∀ s : State, s.params.unlistedOps = .i8080 → s.peek s.pc.toNat = op → s.params.memSize < s.pc.toNat + 3 →
    step s = .fault (.outOfBoundsAccess s.params.memSize)

/-! ### Classes of instructions -/

/-- The three groups of instructions (R65, R196, R209, R214). -/
inductive Group where
  /-- The source enumerates an action, or the value is an alias of `NOP`. -/
  | listed
  /-- `UNLISTED_OPS` governs the instruction (48_unlisted.md R196). -/
  | unlisted
  /-- `DAA` and the five undefined values: they always fault. -/
  | faulting
  deriving DecidableEq, Repr

/-- The group of an instruction. -/
def groupOf : Instr → Group
  | .mvi _ _ | .lxi _ _ | .mov _ _ => .listed
  | .add _ | .adc _ | .sub _ | .sbb _ | .adi _ | .aci _ | .sui _ | .sbi _ => .listed
  | .ana _ | .xra _ | .ora _ | .ani _ | .xri _ | .ori _ | .cmp _ | .cpi _ => .listed
  | .inr _ | .dcr _ | .rlc | .rrc | .ral | .rar | .push _ | .pop _ | .pushPsw | .popPsw => .listed
  | .jmp _ | .jnz _ | .jz _ | .jnc _ | .jc _ | .jpo _ | .jpe _ | .jp _ | .jm _ => .listed
  | .call _ | .cnz _ | .cz _ | .cnc _ | .cc _ | .cpo _ | .cpe _ | .cp _ | .cm _ => .listed
  | .ret | .rnz | .rz | .rnc | .rc | .rpo | .rpe | .rp | .rm | .xchg | .xthl | .sphl | .pchl => .listed
  | .inPort _ | .outPort _ | .ei | .di | .hlt | .nop | .nopAlias _ => .listed
  | .lda _ | .sta _ | .lhld _ | .shld _ | .ldax _ | .stax _ | .inx _ | .dcx _ | .dad _ => .unlisted
  | .cma | .stc | .cmc | .rst _ => .unlisted
  | .daa | .jmpAlias _ | .retAlias | .callAlias _ _ => .faulting

/-- How an instruction moves `pc` and the stack (R15, R18, R44): a jump or call or return with its condition, if it has
one, and its target; `PCHL`; a `PUSH`; a `POP`; or neither. -/
inductive Flow where
  | jump (c : Option Cond) (w : Word)
  | call (c : Option Cond) (w : Word)
  | ret (c : Option Cond)
  | indirect
  | push
  | pop
  | straight
  deriving DecidableEq, Repr

/-- How the instruction moves `pc` and the stack; `RST n` is a call to `8 * n` (R213). -/
def flow : Instr → Flow
  | .jmp w => .jump none w
  | .jnz w => .jump (some .nz) w
  | .jz w  => .jump (some .z) w
  | .jnc w => .jump (some .nc) w
  | .jc w  => .jump (some .c) w
  | .jpo w => .jump (some .po) w
  | .jpe w => .jump (some .pe) w
  | .jp w  => .jump (some .p) w
  | .jm w  => .jump (some .m) w
  | .call w => .call none w
  | .cnz w => .call (some .nz) w
  | .cz w  => .call (some .z) w
  | .cnc w => .call (some .nc) w
  | .cc w  => .call (some .c) w
  | .cpo w => .call (some .po) w
  | .cpe w => .call (some .pe) w
  | .cp w  => .call (some .p) w
  | .cm w  => .call (some .m) w
  | .rst n => .call none (BitVec.ofNat 16 (8 * n.toNat))
  | .ret => .ret none
  | .rnz => .ret (some .nz)
  | .rz  => .ret (some .z)
  | .rnc => .ret (some .nc)
  | .rc  => .ret (some .c)
  | .rpo => .ret (some .po)
  | .rpe => .ret (some .pe)
  | .rp  => .ret (some .p)
  | .rm  => .ret (some .m)
  | .pchl => .indirect
  | .push _ | .pushPsw => .push
  | .pop _ | .popPsw => .pop
  | .mvi _ _ | .lxi _ _ | .mov _ _ => .straight
  | .add _ | .adc _ | .sub _ | .sbb _ | .adi _ | .aci _ | .sui _ | .sbi _ => .straight
  | .ana _ | .xra _ | .ora _ | .ani _ | .xri _ | .ori _ | .cmp _ | .cpi _ => .straight
  | .inr _ | .dcr _ | .rlc | .rrc | .ral | .rar => .straight
  | .xchg | .xthl | .sphl | .inPort _ | .outPort _ | .ei | .di | .hlt | .nop | .nopAlias _ => .straight
  | .lda _ | .sta _ | .lhld _ | .shld _ | .ldax _ | .stax _ | .inx _ | .dcx _ | .dad _ => .straight
  | .cma | .stc | .cmc | .daa | .jmpAlias _ | .retAlias | .callAlias _ _ => .straight

/-- The condition holds, or there is none. -/
def holds (s : State) : Option Cond → Bool
  | none   => true
  | some k => taken s.flags k

/-- The step pushes two bytes: `PUSH`, `PUSH PSW`, `CALL`, a taken `Ccc`, `RST` (R44, R228). -/
def pushes (s : State) (i : Instr) : Bool :=
  match flow i with
  | .push => true
  | .call c _ => holds s c
  | .jump _ _ | .ret _ | .indirect | .pop | .straight => false

/-- The step pops two bytes: `POP`, `POP PSW`, `RET`, a taken `Rcc` (R44, R228). -/
def pops (s : State) (i : Instr) : Bool :=
  match flow i with
  | .pop => true
  | .ret c => holds s c
  | .jump _ _ | .call _ _ | .indirect | .push | .straight => false

/-- Where a taken transfer goes (R15, R141), and `none` where there is none. -/
def transferTo (s : State) (i : Instr) : Option Word :=
  match flow i with
  | .jump c w | .call c w => bif holds s c then some w else none
  | .ret c => bif holds s c then some (topWord s) else none
  | .indirect => some (BitVec.ofNat 16 (pairVal s .hl))
  | .push | .pop | .straight => none

/-- The value `LXI SP`, `SPHL`, `INX SP` and `DCX SP` load into `sp` (R17). -/
def loadsSp (s : State) : Instr → Option Word
  | .lxi .sp w => some w
  | .inx .sp   => some (s.sp + 1)
  | .dcx .sp   => some (s.sp - 1)
  | .sphl      => some (BitVec.ofNat 16 (pairVal s .hl))
  | .lxi .bc _ | .lxi .de _ | .lxi .hl _ | .inx .bc | .inx .de | .inx .hl | .dcx .bc | .dcx .de | .dcx .hl => none
  | .mvi _ _ | .mov _ _ | .add _ | .adc _ | .sub _ | .sbb _ | .adi _ | .aci _ | .sui _ | .sbi _ => none
  | .ana _ | .xra _ | .ora _ | .ani _ | .xri _ | .ori _ | .cmp _ | .cpi _ => none
  | .inr _ | .dcr _ | .rlc | .rrc | .ral | .rar | .push _ | .pop _ | .pushPsw | .popPsw => none
  | .jmp _ | .jnz _ | .jz _ | .jnc _ | .jc _ | .jpo _ | .jpe _ | .jp _ | .jm _ => none
  | .call _ | .cnz _ | .cz _ | .cnc _ | .cc _ | .cpo _ | .cpe _ | .cp _ | .cm _ => none
  | .ret | .rnz | .rz | .rnc | .rc | .rpo | .rpe | .rp | .rm | .xchg | .xthl | .pchl => none
  | .inPort _ | .outPort _ | .ei | .di | .hlt | .nop | .nopAlias _ => none
  | .lda _ | .sta _ | .lhld _ | .shld _ | .ldax _ | .stax _ | .dad _ | .cma | .stc | .cmc | .rst _ => none
  | .daa | .jmpAlias _ | .retAlias | .callAlias _ _ => none

/-- The stack pointer after the instruction (R17, R18). -/
def spAfter (s : State) (i : Instr) : Word :=
  bif pushes s i then s.sp - 2 else bif pops s i then s.sp + 2 else (loadsSp s i).getD s.sp

/-- The address of an operand written, if it is in memory (R60). -/
def operandStore (s : State) : Operand → List Nat
  | .reg _ => []
  | .m     => [pairVal s .hl]

/-- The addresses the instruction stores to (R44). -/
def storesTo (s : State) (i : Instr) : List Nat :=
  match i with
  | .mov o _ | .mvi o _ | .inr o | .dcr o => operandStore s o
  | .xthl   => [s.sp.toNat, s.sp.toNat + 1]
  | .sta w  => [w.toNat]
  | .shld w => [w.toNat, w.toNat + 1]
  | .stax p => [pairVal s (ofIndirect p)]
  | .push _ | .pushPsw | .rst _ => [s.sp.toNat - 1, s.sp.toNat - 2]
  | .call _ | .cnz _ | .cz _ | .cnc _ | .cc _ | .cpo _ | .cpe _ | .cp _ | .cm _ =>
    bif pushes s i then [s.sp.toNat - 1, s.sp.toNat - 2] else []
  | .lxi _ _ | .add _ | .adc _ | .sub _ | .sbb _ | .adi _ | .aci _ | .sui _ | .sbi _ => []
  | .ana _ | .xra _ | .ora _ | .ani _ | .xri _ | .ori _ | .cmp _ | .cpi _ => []
  | .rlc | .rrc | .ral | .rar | .pop _ | .popPsw => []
  | .jmp _ | .jnz _ | .jz _ | .jnc _ | .jc _ | .jpo _ | .jpe _ | .jp _ | .jm _ => []
  | .ret | .rnz | .rz | .rnc | .rc | .rpo | .rpe | .rp | .rm | .xchg | .sphl | .pchl => []
  | .inPort _ | .outPort _ | .ei | .di | .hlt | .nop | .nopAlias _ => []
  | .lda _ | .lhld _ | .ldax _ | .inx _ | .dcx _ | .dad _ | .cma | .stc | .cmc => []
  | .daa | .jmpAlias _ | .retAlias | .callAlias _ _ => []

/-- The flags a row of R20's table says an instruction writes. -/
inductive FlagRow where
  /-- No flag. -/
  | none
  /-- `Z`, `S`, `P` and `CY`. -/
  | zspCy
  /-- `Z`, `S` and `P`. -/
  | zsp
  /-- `CY`. -/
  | cy
  /-- All five. -/
  | all
  deriving DecidableEq, Repr

/-- R20's table. -/
def flagRow : Instr → FlagRow
  | .add _ | .adi _ | .sub _ | .sui _ | .adc _ | .aci _ | .sbb _ | .sbi _ => .zspCy
  | .ana _ | .ani _ | .xra _ | .xri _ | .ora _ | .ori _ | .cmp _ | .cpi _ => .zspCy
  | .inr _ | .dcr _ => .zsp
  | .rlc | .rrc | .ral | .rar | .dad _ | .stc | .cmc => .cy
  | .popPsw => .all
  | .mvi _ _ | .lxi _ _ | .mov _ _ | .push _ | .pop _ | .pushPsw => .none
  | .jmp _ | .jnz _ | .jz _ | .jnc _ | .jc _ | .jpo _ | .jpe _ | .jp _ | .jm _ => .none
  | .call _ | .cnz _ | .cz _ | .cnc _ | .cc _ | .cpo _ | .cpe _ | .cp _ | .cm _ => .none
  | .ret | .rnz | .rz | .rnc | .rc | .rpo | .rpe | .rp | .rm | .xchg | .xthl | .sphl | .pchl => .none
  | .inPort _ | .outPort _ | .ei | .di | .hlt | .nop | .nopAlias _ => .none
  | .lda _ | .sta _ | .lhld _ | .shld _ | .ldax _ | .stax _ | .inx _ | .dcx _ | .cma | .rst _ => .none
  | .daa | .jmpAlias _ | .retAlias | .callAlias _ _ => .none

/-- The flags the instruction does not write keep their values. -/
def FlagsKept (row : FlagRow) (f g : Flags) : Prop :=
  match row with
  | .none  => g = f
  | .zspCy => g.ac = f.ac
  | .zsp   => g.cy = f.cy ∧ g.ac = f.ac
  | .cy    => g = { f with cy := g.cy }
  | .all   => True

/-- The registers of an operand. -/
def operandRegs : Operand → List Reg
  | .reg r => [r]
  | .m     => []

/-- The registers of a pair (R13, R61). -/
def pairRegs : Pair → List Reg
  | .bc => [.b, .c]
  | .de => [.d, .e]
  | .hl => [.h, .l]
  | .sp => []

/-- The registers the instruction may write (R11, R12 and the families' pseudocode). -/
def regsWritten : Instr → List Reg
  | .mvi o _ | .mov o _ | .inr o | .dcr o => operandRegs o
  | .lxi p _ | .inx p | .dcx p => pairRegs p
  | .pop p => pairRegs (ofStack p)
  | .dad _ | .lhld _ | .xthl => [.h, .l]
  | .xchg => [.d, .e, .h, .l]
  | .add _ | .adc _ | .sub _ | .sbb _ | .adi _ | .aci _ | .sui _ | .sbi _ => [.a]
  | .ana _ | .xra _ | .ora _ | .ani _ | .xri _ | .ori _ | .rlc | .rrc | .ral | .rar => [.a]
  | .popPsw | .inPort _ | .lda _ | .ldax _ | .cma => [.a]
  | .cmp _ | .cpi _ | .push _ | .pushPsw => []
  | .jmp _ | .jnz _ | .jz _ | .jnc _ | .jc _ | .jpo _ | .jpe _ | .jp _ | .jm _ => []
  | .call _ | .cnz _ | .cz _ | .cnc _ | .cc _ | .cpo _ | .cpe _ | .cp _ | .cm _ => []
  | .ret | .rnz | .rz | .rnc | .rc | .rpo | .rpe | .rp | .rm | .sphl | .pchl => []
  | .outPort _ | .ei | .di | .hlt | .nop | .nopAlias _ => []
  | .sta _ | .shld _ | .stax _ | .stc | .cmc | .rst _ => []
  | .daa | .jmpAlias _ | .retAlias | .callAlias _ _ => []

/-- The six opcode values that fault under both settings of `UNLISTED_OPS` (96_test_vectors_programs.md 2.10). -/
def faultingUnderI8080 : List Nat := [0x27, 0xCB, 0xD9, 0xDD, 0xED, 0xFD]

/-- The 37 opcode values that fault with `UNLISTED_OPS = fault` (96_test_vectors_programs.md 2.10). -/
def faultingByDefault : List Nat :=
  [0x02, 0x03, 0x09, 0x0A, 0x0B, 0x12, 0x13, 0x19, 0x1A, 0x1B, 0x22, 0x23, 0x27, 0x29, 0x2A, 0x2B, 0x2F, 0x32, 0x33] ++
  [0x37, 0x39, 0x3A, 0x3B, 0x3F, 0xC7, 0xCB, 0xCF, 0xD7, 0xD9, 0xDD, 0xDF, 0xE7, 0xED, 0xEF, 0xF7, 0xFD, 0xFF]

/-- The opcode values that fault as unimplemented under a setting (R68). -/
def faultingOpcodes : UnlistedOps → List Nat
  | .fault => faultingByDefault
  | .i8080 => faultingUnderI8080

/-- R66's closed form of `LEN`. -/
def lenClosedForm (op : Byte) : Nat :=
  if op &&& 0xCF = 0x01 ∨ op ∈ [(0x22 : Byte), 0x2A, 0x32, 0x3A] ∨ op &&& 0xC7 = 0xC2 ∨ op &&& 0xC7 = 0xC4 ∨
      op ∈ [(0xC3 : Byte), 0xCB, 0xCD, 0xDD, 0xED, 0xFD] then 3
  else if op &&& 0xC7 = 0x06 ∨ op &&& 0xC7 = 0xC6 ∨ op = 0xD3 ∨ op = 0xDB then 2
  else 1

/-- The bytes of memory at `pc` and the two after it that lie in the store. -/
def bytesAtPc (s : State) : List Byte :=
  ([s.pc.toNat, s.pc.toNat + 1, s.pc.toNat + 2].filter fun a => decide (a < s.params.memSize)).map s.peek

/-- The same state under another setting of `UNLISTED_OPS`. -/
def withOps (u : UnlistedOps) (s : State) : State := { s with params := { s.params with unlistedOps := u } }

/-- A result with its state mapped. -/
def mapResult (g : State → State) : Result → Result
  | .next t    => .next (g t)
  | .fault f   => .fault f
  | .refused r => .refused r

/-- Each of the first `k` steps from `s` returns `Continue`. -/
def AllContinued (s : State) (k : Nat) : Prop :=
  ∀ j, 0 < j → j ≤ k → ∃ u : State, Host.Core.run core j s = .next u ∧ u.result = .continued

end Sys2Proof.Spec

open Sys2Proof Sys2Proof.Machine Sys2Proof.Spec

/-! ### Encoding and decoding -/

/-- 30_encoding.md R64, R65, R69: decoding the bytes of a well-formed instruction, whatever follows them, gives the
instruction back and leaves what follows. -/
def Obligations.DecodeOfEncode : Prop :=
  ∀ (i : Instr) (rest : List Byte), i.wellFormed = true → decode (encode i ++ rest) = .ok (i, rest)

/-- R69: what the decoder answers is well-formed, and its bytes are the ones that were read: each byte string has one
meaning. -/
def Obligations.EncodeOfDecode : Prop :=
  ∀ (bs rest : List Byte) (i : Instr), decode bs = .ok (i, rest) → i.wellFormed = true ∧ encode i ++ rest = bs

/-- R66: the length table agrees with its closed form, and 208, 18 and 30 opcode values have length 1, 2 and 3.
The numbers of the table are the spec's own decision D28. -/
def Obligations.LengthTableClosedForm : Prop :=
  (∀ op : Byte, lengthOf op = lenClosedForm op) ∧
  ((List.range 256).countP fun n => lengthOf (byte n) == 1) = 208 ∧
  ((List.range 256).countP fun n => lengthOf (byte n) == 2) = 18 ∧
  ((List.range 256).countP fun n => lengthOf (byte n) == 3) = 30

/-- R55, R66, R69: an instruction is one opcode byte and zero, one or two operand bytes, as many as the length table
says for the opcode byte alone: every opcode value followed by enough bytes decodes and consumes `LEN[op]` of them,
whatever those bytes and the ones after them are, and with fewer bytes none does.
That decoding is total is derived by the spec (R69). That the values that always fault have a length is its own decision
D28, that the decoder gives them their operand bytes the model's choice (log 11); the answer `missingOperand` is the
model's own. -/
def Obligations.DecodeTotalConsumesLength : Prop :=
  ∀ (op : Byte) (bs : List Byte),
    (1 ≤ lengthOf op ∧ lengthOf op ≤ 3) ∧
    (lengthOf op ≤ bs.length + 1 → ∃ i, decode (op :: bs) = .ok (i, bs.drop (lengthOf op - 1))) ∧
    (bs.length + 1 < lengthOf op → decode (op :: bs) = .error (.missingOperand op))

/-- R65: words written out from the spec's encodings decode to the instructions they stand for. -/
def Obligations.SampleWordsDecode : Prop :=
  decode [0b00111110, 5] = .ok (.mvi (.reg .a) 5, []) ∧
  decode [0b01110001] = .ok (.mov .m (.reg .c), []) ∧
  decode [0b01110110] = .ok (.hlt, []) ∧
  decode [0b10000110] = .ok (.add .m, []) ∧
  decode [0b11001101, 0x00, 0x02] = .ok (.call 0x0200, []) ∧
  decode [0b11110101] = .ok (.pushPsw, []) ∧
  decode [0b00111011] = .ok (.dcx .sp, []) ∧
  decode [0b11111111] = .ok (.rst 7, [])

/-! ### The step -/

/-- R70, R71: when the bytes at `pc` decode to an instruction, the step is what `exec` does with it in that state;
nothing is added around it, since every meaning writes `pc` itself. -/
def Obligations.StepRunsDecodedInstruction : Prop :=
  ∀ (s : State) (i : Instr) (rest : List Byte), decode (bytesAtPc s) = .ok (i, rest) → step s = exec i s

/-- R227, R68: a step raises `UnimplementedOpcode` exactly on the opcode values that fault under the setting of
`UNLISTED_OPS`, with that opcode byte and the address it was fetched from.
Which values fault is the spec's own decision D7, D8, D9. -/
def Obligations.StepUnimplementedExactly : Prop :=
  ∀ (s : State) (op : Byte) (a : Word), step s = .fault (.unimplementedOpcode op a) ↔
    op = s.peek s.pc.toNat ∧ a = s.pc ∧ op.toNat ∈ faultingOpcodes s.params.unlistedOps

/-- R70, R233: an opcode value that does not fault as unimplemented, with an operand byte outside the store, ends the
step with the address of the first such byte, whatever the instruction would have done.
Unreduced addresses, operand bytes always fetched and the order are the spec's own decisions D10, D21, D13. -/
def Obligations.OperandFetchOutOfBounds : Prop :=
  ∀ s : State, (s.peek s.pc.toNat).toNat ∉ faultingOpcodes s.params.unlistedOps →
    s.params.memSize < s.pc.toNat + lengthOf (s.peek s.pc.toNat) →
    step s = .fault (.outOfBoundsAccess s.params.memSize)

/-- R228: the complete list of ways an instruction whose bytes were fetched raises `OutOfBoundsAccess`, for every
`MEM_SIZE`.
Unreduced addresses are the spec's own decision D10. -/
def Obligations.DataOutOfBoundsExactly : Prop :=
  ∀ (i : Instr) (s : State) (a : Int), exec i s = .fault (.outOfBoundsAccess a) ↔
    (groupOf i = .unlisted → s.params.unlistedOps = .i8080) ∧
    ((pushes s i = true ∧ s.sp.toNat < 2 ∧ a = -1) ∨
     ((pops s i = true ∨ i = .xthl) ∧ s.params.memSize ≤ s.sp.toNat + 1 ∧ a = s.sp.toNat + 1) ∨
     (∃ w : Word, (i = .lhld w ∨ i = .shld w) ∧ s.params.memSize ≤ w.toNat + 1 ∧ a = w.toNat + 1))

/-- R228: with the default `MEM_SIZE`, the address an `OutOfBoundsAccess` reports is -1 or 65536. -/
def Obligations.DefaultOutOfBoundsAddresses : Prop :=
  ∀ (s : State) (a : Int), s.params.memExtra = 0 → step s = .fault (.outOfBoundsAccess a) → a = -1 ∨ a = 65536

/-- Every instruction has a meaning: neither `exec` nor `step` ever refuses. -/
def Obligations.NothingIsRefused : Prop :=
  (∀ (i : Instr) (s : State) (r : Refusal), exec i s ≠ .refused r) ∧
  (∀ (s : State) (r : Refusal), step s ≠ .refused r)

/-! ### 10_state.md -/

/-- R13: `BC`, `DE`, `HL` are views over two 8-bit registers each, the high register first, and no storage of their own:
the value read, the two registers a write of the pair changes and nothing else, and what a write of a register does to
the pairs. -/
def Obligations.RegisterPairsAreViews : Prop :=
  ∀ s : State,
    ((s.pair .bc).toNat = s.regs.b.toNat * 256 + s.regs.c.toNat ∧
      (s.pair .de).toNat = s.regs.d.toNat * 256 + s.regs.e.toNat ∧
      (s.pair .hl).toNat = s.regs.h.toNat * 256 + s.regs.l.toNat) ∧
    (∀ w : Word,
      s.setPair .bc w = { s with regs := { s.regs with b := byte (w.toNat / 256), c := byte (w.toNat % 256) } } ∧
      s.setPair .de w = { s with regs := { s.regs with d := byte (w.toNat / 256), e := byte (w.toNat % 256) } } ∧
      s.setPair .hl w = { s with regs := { s.regs with h := byte (w.toNat / 256), l := byte (w.toNat % 256) } }) ∧
    (∀ w : Word, (s.setPair .bc w).pair .bc = w ∧ (s.setPair .de w).pair .de = w ∧ (s.setPair .hl w).pair .hl = w) ∧
    (∀ v : Byte,
      ((s.setReg .b v).pair .bc).toNat = v.toNat * 256 + s.regs.c.toNat ∧
      ((s.setReg .c v).pair .bc).toNat = s.regs.b.toNat * 256 + v.toNat ∧
      ((s.setReg .d v).pair .de).toNat = v.toNat * 256 + s.regs.e.toNat ∧
      ((s.setReg .e v).pair .de).toNat = s.regs.d.toNat * 256 + v.toNat ∧
      ((s.setReg .h v).pair .hl).toNat = v.toNat * 256 + s.regs.l.toNat ∧
      ((s.setReg .l v).pair .hl).toNat = s.regs.h.toNat * 256 + v.toNat ∧
      ∀ p, (s.setReg .a v).pair p = s.pair p)

/-! ### 40_load_move.md -/

/-- R81.
The `M` form is the spec's own decision D5.
The operand fetch fault is the spec's own decision D10, D21 (log 10). -/
def Obligations.MviResult : Prop :=
  (∀ (o : Operand) (v : Byte), encode (.mvi o v) = [byte (0x06 + 8 * regCode o), v]) ∧
  (∀ (o : Operand) (v : Byte) (s : State), ∃ t, exec (.mvi o v) s = .next t ∧ WritesOperand s t o v s.flags 2) ∧
  (∀ o : Operand, OperandFetchFaults (byte (0x06 + 8 * regCode o)) 2)

/-- R82.
The byte order and pair code 11 are the spec's own decisions D22, D6.
The operand fetch fault is the spec's own decision D10, D21 (log 10). -/
def Obligations.LxiResult : Prop :=
  (∀ (p : Pair) (w : Word), encode (.lxi p w) = byte (0x01 + 16 * pairCode p) :: lowHigh w) ∧
  (∀ (w : Word) (s : State),
    exec (.lxi .bc w) s =
      .next { stepped s 3 with regs := { s.regs with b := byte (w.toNat / 256), c := byte (w.toNat % 256) } } ∧
    exec (.lxi .de w) s =
      .next { stepped s 3 with regs := { s.regs with d := byte (w.toNat / 256), e := byte (w.toNat % 256) } } ∧
    exec (.lxi .hl w) s =
      .next { stepped s 3 with regs := { s.regs with h := byte (w.toNat / 256), l := byte (w.toNat % 256) } } ∧
    exec (.lxi .sp w) s = .next { stepped s 3 with sp := w }) ∧
  (∀ p : Pair, OperandFetchFaults (byte (0x01 + 16 * pairCode p)) 3)

/-- R83, R84, R85: every form but `MOV M,M`, which is no instruction.
The opcode values and register codes are the spec's own decisions D3, D4 (log 6), `pc + 1` modulo 65536 its D11 (log 10). -/
def Obligations.MovResult : Prop :=
  ∀ (dst src : Operand), ¬(dst = .m ∧ src = .m) →
    encode (.mov dst src) = [byte (0x40 + 8 * regCode dst + regCode src)] ∧
    ∀ s : State, ∃ t, exec (.mov dst src) s = .next t ∧ WritesOperand s t dst (operandVal s src) s.flags 1

/-! ### 41_arithmetic.md -/

/-- R90, R91, R112: the ALU primitives `alu_add`, `alu_sub`, `alu_cmp` for every operand byte and incoming carry: the
result modulo 256 in `A` (not written by a compare), the carry from the unbounded sum or difference, the other flags as
`flagsZSP` of the result leaves them, and nothing else written. -/
def Obligations.AluPrimitivesResult : Prop :=
  ∀ (s : State) (x : Byte) (c : Bool),
    aluAdd s x c = { s with
      regs := { s.regs with a := byte ((s.regs.a.toNat + x.toNat + c.toNat) % 256) }
      flags := { flagsZSP s.flags (byte ((s.regs.a.toNat + x.toNat + c.toNat) % 256)) with
        cy := decide (255 < s.regs.a.toNat + x.toNat + c.toNat) } } ∧
    aluSub s x c = { s with
      regs := { s.regs with a := byte ((s.regs.a.toNat + 512 - (x.toNat + c.toNat)) % 256) }
      flags := { flagsZSP s.flags (byte ((s.regs.a.toNat + 512 - (x.toNat + c.toNat)) % 256)) with
        cy := decide (s.regs.a.toNat < x.toNat + c.toNat) } } ∧
    aluCmp s x = { s with
      flags := { flagsZSP s.flags (byte ((s.regs.a.toNat + 256 - x.toNat) % 256)) with
        cy := decide (s.regs.a.toNat < x.toNat) } } ∧
    aluCmp s x = { aluSub s x false with regs := s.regs } ∧
    ∀ (f : Flags) (v : Byte), ((flagsZSP f v).z = true ↔ v.toNat = 0) ∧ ((flagsZSP f v).s = true ↔ 128 ≤ v.toNat) ∧
      (flagsZSP f v).cy = f.cy ∧ (flagsZSP f v).ac = f.ac

/-- R90, R92, R93, R96, R97: `ADD`, `ADC`, `ADI`, `ACI`.
The `M` form is the spec's own decision D5 (log 6); the operand fetch fault (unreduced addresses, operand bytes
always fetched) its own decisions D10, D21 (log 10). -/
def Obligations.AddFamilyResult : Prop :=
  (∀ o : Operand, encode (.add o) = [byte (0x80 + regCode o)] ∧ encode (.adc o) = [byte (0x88 + regCode o)]) ∧
  (∀ v : Byte, encode (.adi v) = [0xC6, v] ∧ encode (.aci v) = [0xCE, v]) ∧
  (∀ (o : Operand) (s : State),
    (∃ t, exec (.add o) s = .next t ∧ AddEffect s t (operandVal s o) false 1) ∧
    (∃ t, exec (.adc o) s = .next t ∧ AddEffect s t (operandVal s o) s.flags.cy 1)) ∧
  (∀ (v : Byte) (s : State),
    (∃ t, exec (.adi v) s = .next t ∧ AddEffect s t v false 2) ∧
    (∃ t, exec (.aci v) s = .next t ∧ AddEffect s t v s.flags.cy 2)) ∧
  OperandFetchFaults 0xC6 2 ∧ OperandFetchFaults 0xCE 2

/-- R91, R94, R95, R98, R99: `SUB`, `SBB`, `SUI`, `SBI`.
The `M` form is the spec's own decision D5 (log 6); the operand fetch fault (unreduced addresses, operand bytes
always fetched) its own decisions D10, D21 (log 10). -/
def Obligations.SubtractFamilyResult : Prop :=
  (∀ o : Operand, encode (.sub o) = [byte (0x90 + regCode o)] ∧ encode (.sbb o) = [byte (0x98 + regCode o)]) ∧
  (∀ v : Byte, encode (.sui v) = [0xD6, v] ∧ encode (.sbi v) = [0xDE, v]) ∧
  (∀ (o : Operand) (s : State),
    (∃ t, exec (.sub o) s = .next t ∧ SubEffect s t (operandVal s o) false 1) ∧
    (∃ t, exec (.sbb o) s = .next t ∧ SubEffect s t (operandVal s o) s.flags.cy 1)) ∧
  (∀ (v : Byte) (s : State),
    (∃ t, exec (.sui v) s = .next t ∧ SubEffect s t v false 2) ∧
    (∃ t, exec (.sbi v) s = .next t ∧ SubEffect s t v s.flags.cy 2)) ∧
  OperandFetchFaults 0xD6 2 ∧ OperandFetchFaults 0xDE 2

/-! ### 42_logical_compare.md -/

/-- R105 to R111: `ANA`, `XRA`, `ORA`, `ANI`, `XRI`, `ORI`.
The `M` form is the spec's own decision D5 (log 6); the operand fetch fault (unreduced addresses, operand bytes
always fetched) its own decisions D10, D21 (log 10). -/
def Obligations.LogicFamilyResult : Prop :=
  (∀ o : Operand, encode (.ana o) = [byte (0xA0 + regCode o)] ∧ encode (.xra o) = [byte (0xA8 + regCode o)] ∧
    encode (.ora o) = [byte (0xB0 + regCode o)]) ∧
  (∀ v : Byte, encode (.ani v) = [0xE6, v] ∧ encode (.xri v) = [0xEE, v] ∧ encode (.ori v) = [0xF6, v]) ∧
  (∀ (o : Operand) (s : State),
    (∃ t, exec (.ana o) s = .next t ∧ LogicEffect s t (fun a b => a && b) (operandVal s o) 1) ∧
    (∃ t, exec (.xra o) s = .next t ∧ LogicEffect s t (fun a b => a != b) (operandVal s o) 1) ∧
    (∃ t, exec (.ora o) s = .next t ∧ LogicEffect s t (fun a b => a || b) (operandVal s o) 1)) ∧
  (∀ (v : Byte) (s : State),
    (∃ t, exec (.ani v) s = .next t ∧ LogicEffect s t (fun a b => a && b) v 2) ∧
    (∃ t, exec (.xri v) s = .next t ∧ LogicEffect s t (fun a b => a != b) v 2) ∧
    (∃ t, exec (.ori v) s = .next t ∧ LogicEffect s t (fun a b => a || b) v 2)) ∧
  OperandFetchFaults 0xE6 2 ∧ OperandFetchFaults 0xEE 2 ∧ OperandFetchFaults 0xF6 2

/-- R112, R113, R114: `CMP`, `CPI`.
The `M` form is the spec's own decision D5 (log 6); the operand fetch fault (unreduced addresses, operand bytes
always fetched) its own decisions D10, D21 (log 10). -/
def Obligations.CompareResult : Prop :=
  (∀ o : Operand, encode (.cmp o) = [byte (0xB8 + regCode o)]) ∧ (∀ v : Byte, encode (.cpi v) = [0xFE, v]) ∧
  (∀ (o : Operand) (s : State), ∃ t, exec (.cmp o) s = .next t ∧ CompareEffect s t (operandVal s o) 1) ∧
  (∀ (v : Byte) (s : State), ∃ t, exec (.cpi v) s = .next t ∧ CompareEffect s t v 2) ∧
  OperandFetchFaults 0xFE 2

/-! ### 43_incdec_rotate.md -/

/-- R120, R121, R122: `INR`, `DCR`; `CY` and `AC` keep their values.
The `M` forms are the spec's own decision D5 (log 6). -/
def Obligations.IncrementDecrementResult : Prop :=
  (∀ o : Operand, encode (.inr o) = [byte (0x04 + 8 * regCode o)] ∧ encode (.dcr o) = [byte (0x05 + 8 * regCode o)]) ∧
  (∀ (o : Operand) (s : State),
    (∃ t, exec (.inr o) s = .next t ∧ ZspOf t.flags (byte ((operandVal s o).toNat + 1)) ∧
      WritesOperand s t o (byte ((operandVal s o).toNat + 1))
        { t.flags with cy := s.flags.cy, ac := s.flags.ac } 1) ∧
    (∃ t, exec (.dcr o) s = .next t ∧ ZspOf t.flags (byte ((operandVal s o).toNat + 255)) ∧
      WritesOperand s t o (byte ((operandVal s o).toNat + 255))
        { t.flags with cy := s.flags.cy, ac := s.flags.ac } 1))

/-- R123 to R127: `RLC`, `RRC`, `RAL`, `RAR`, bit by bit.
That `Z`, `S`, `P` and `AC` are kept is the spec's own decision D16 (log 9). -/
def Obligations.RotateResult : Prop :=
  encode .rlc = [0x07] ∧ encode .rrc = [0x0F] ∧ encode .ral = [0x17] ∧ encode .rar = [0x1F] ∧
  ∀ s : State,
    (∃ t, exec .rlc s = .next t ∧
      RotateEffect s t (fun n => if n = 0 then s.regs.a.getLsbD 7 else s.regs.a.getLsbD (n - 1)) (s.regs.a.getLsbD 7)) ∧
    (∃ t, exec .rrc s = .next t ∧
      RotateEffect s t (fun n => if n = 7 then s.regs.a.getLsbD 0 else s.regs.a.getLsbD (n + 1)) (s.regs.a.getLsbD 0)) ∧
    (∃ t, exec .ral s = .next t ∧
      RotateEffect s t (fun n => if n = 0 then s.flags.cy else s.regs.a.getLsbD (n - 1)) (s.regs.a.getLsbD 7)) ∧
    (∃ t, exec .rar s = .next t ∧
      RotateEffect s t (fun n => if n = 7 then s.flags.cy else s.regs.a.getLsbD (n + 1)) (s.regs.a.getLsbD 0))

/-! ### 44_stack.md -/

/-- R130, R132: `PUSH`.
The fault with address -1 (unreduced addresses) is the spec's own decision D10 (log 10). -/
def Obligations.PushResult : Prop :=
  ∀ (p : StackPair),
    encode (.push p) = [byte (0xC5 + 16 * pairCode (ofStack p))] ∧
    ∀ s : State,
      (2 ≤ s.sp.toNat → ∃ t, exec (.push p) s = .next t ∧
        Pushed s t (pairVal s (ofStack p) / 256) (pairVal s (ofStack p) % 256) ∧
        t = { stepped s 1 with sp := t.sp, mem := t.mem }) ∧
      (s.sp.toNat < 2 → exec (.push p) s = .fault (.outOfBoundsAccess (-1)))

/-- R131, R133: `POP`.
The fault at `sp + 1` (unreduced addresses) and `sp` modulo 65536 are the spec's own decisions D10, D11 (log 10). -/
def Obligations.PopResult : Prop :=
  (∀ p : StackPair, encode (.pop p) = [byte (0xC1 + 16 * pairCode (ofStack p))]) ∧
  ∀ s : State,
    (s.sp.toNat + 1 < s.params.memSize →
      exec (.pop .bc) s = .next { stepped s 1 with sp := poppedSp s, regs :=
        { s.regs with b := s.peek (s.sp.toNat + 1), c := s.peek s.sp.toNat } } ∧
      exec (.pop .de) s = .next { stepped s 1 with sp := poppedSp s, regs :=
        { s.regs with d := s.peek (s.sp.toNat + 1), e := s.peek s.sp.toNat } } ∧
      exec (.pop .hl) s = .next { stepped s 1 with sp := poppedSp s, regs :=
        { s.regs with h := s.peek (s.sp.toNat + 1), l := s.peek s.sp.toNat } }) ∧
    (s.params.memSize ≤ s.sp.toNat + 1 →
      ∀ p, exec (.pop p) s = .fault (.outOfBoundsAccess (s.sp.toNat + 1)))

/-- R25, R134: `PUSH PSW`; the flag byte is `S Z 0 AC 0 P 1 CY`.
The bit positions are the spec's own decision D14.
The fault with address -1 is the spec's own decision D10 (log 10). -/
def Obligations.PushPswResult : Prop :=
  encode .pushPsw = [0xF5] ∧
  ∀ s : State,
    (2 ≤ s.sp.toNat → ∃ t, exec .pushPsw s = .next t ∧
      Pushed s t s.regs.a.toNat
        (128 * s.flags.s.toNat + 64 * s.flags.z.toNat + 16 * s.flags.ac.toNat + 4 * s.flags.p.toNat + 2 +
          s.flags.cy.toNat) ∧
      t = { stepped s 1 with sp := t.sp, mem := t.mem }) ∧
    (s.sp.toNat < 2 → exec .pushPsw s = .fault (.outOfBoundsAccess (-1)))

/-- R26, R135: `POP PSW`; bits 5, 3 and 1 of the flag byte are ignored.
The bit positions are the spec's own decision D14.
The fault at `sp + 1` and `sp` modulo 65536 are the spec's own decisions D10, D11 (log 10). -/
def Obligations.PopPswResult : Prop :=
  encode .popPsw = [0xF1] ∧
  ∀ s : State,
    (s.sp.toNat + 1 < s.params.memSize →
      exec .popPsw s = .next { stepped s 1 with
        sp := poppedSp s
        regs := { s.regs with a := s.peek (s.sp.toNat + 1) }
        flags := { s  := decide ((s.peek s.sp.toNat).toNat / 128 % 2 = 1)
                   z  := decide ((s.peek s.sp.toNat).toNat / 64 % 2 = 1)
                   ac := decide ((s.peek s.sp.toNat).toNat / 16 % 2 = 1)
                   p  := decide ((s.peek s.sp.toNat).toNat / 4 % 2 = 1)
                   cy := decide ((s.peek s.sp.toNat).toNat % 2 = 1) } }) ∧
    (s.params.memSize ≤ s.sp.toNat + 1 → exec .popPsw s = .fault (.outOfBoundsAccess (s.sp.toNat + 1)))

/-! ### 45_control_transfer.md -/

/-- R140, R142 to R150: `JMP` and the eight `Jcc`.
That the operand fetch faults at the top of the store, taken or not, is the spec's own decision D10, D21 (log 10). -/
def Obligations.JumpResult : Prop :=
  (∀ w : Word, encode (.jmp w) = 0xC3 :: lowHigh w) ∧
  (∀ (k : Cond) (w : Word), encode (jumpOn k w) = byte (0xC2 + 8 * condCode k) :: lowHigh w) ∧
  (∀ (w : Word) (s : State), exec (.jmp w) s = .next { s with pc := w, result := .continued }) ∧
  (∀ (k : Cond) (w : Word) (s : State), exec (jumpOn k w) s =
    .next (if taken s.flags k then { s with pc := w, result := .continued } else stepped s 3)) ∧
  OperandFetchFaults 0xC3 3 ∧ (∀ k, OperandFetchFaults (byte (0xC2 + 8 * condCode k)) 3)

/-- R140, R151 to R159: `CALL` and the eight `Ccc`.
The return address `a0 + 3`, reduced to 16 bits, is the spec's own decision D1, D11.
The fault with address -1 and the operand fetch fault are its decisions D10, D21 (log 10). -/
def Obligations.CallResult : Prop :=
  (∀ w : Word, encode (.call w) = 0xCD :: lowHigh w) ∧
  (∀ (k : Cond) (w : Word), encode (callOn k w) = byte (0xC4 + 8 * condCode k) :: lowHigh w) ∧
  (∀ (w : Word) (s : State), Calls (.call w) s w 3) ∧
  (∀ (k : Cond) (w : Word) (s : State),
    (taken s.flags k = true → Calls (callOn k w) s w 3) ∧
    (taken s.flags k = false → exec (callOn k w) s = .next (stepped s 3))) ∧
  OperandFetchFaults 0xCD 3 ∧ (∀ k, OperandFetchFaults (byte (0xC4 + 8 * condCode k)) 3)

/-- R140, R160 to R168: `RET` and the eight `Rcc`.
The fault at `sp + 1` (unreduced addresses) and `sp` modulo 65536 are the spec's own decisions D10, D11 (log 10). -/
def Obligations.ReturnResult : Prop :=
  encode .ret = [0xC9] ∧ (∀ k, encode (returnOn k) = [byte (0xC0 + 8 * condCode k)]) ∧
  (∀ s : State, Returns .ret s) ∧
  (∀ (k : Cond) (s : State),
    (taken s.flags k = true → Returns (returnOn k) s) ∧
    (taken s.flags k = false → exec (returnOn k) s = .next (stepped s 1)))

/-! ### 46_exchange_sp_pc.md -/

/-- R176, R178, R179: `XCHG`, `SPHL`, `PCHL`.
The opcode values are the spec's own decision D3 (log 6), the successor `pc` of `XCHG` and `SPHL` its D11 (log 10). -/
def Obligations.ExchangeRegisterResult : Prop :=
  encode .xchg = [0xEB] ∧ encode .sphl = [0xF9] ∧ encode .pchl = [0xE9] ∧
  ∀ s : State,
    exec .xchg s = .next { stepped s 1 with regs :=
      { s.regs with h := s.regs.d, l := s.regs.e, d := s.regs.h, e := s.regs.l } } ∧
    exec .sphl s = .next { stepped s 1 with sp := BitVec.ofNat 16 (pairVal s .hl) } ∧
    exec .pchl s = .next { s with pc := BitVec.ofNat 16 (pairVal s .hl), result := .continued }

/-- R177: `XTHL`.
The pairing of `L` and `H` with the two bytes is the spec's own decision D17.
The fault at `sp + 1` is the spec's own decision D10 (log 10). -/
def Obligations.XthlResult : Prop :=
  encode .xthl = [0xE3] ∧
  ∀ s : State,
    (s.sp.toNat + 1 < s.params.memSize → ∃ t, exec .xthl s = .next t ∧
      OnlyTwoBytes s t s.sp.toNat s.regs.l (s.sp.toNat + 1) s.regs.h ∧
      t = { stepped s 1 with mem := t.mem, regs :=
        { s.regs with l := s.peek s.sp.toNat, h := s.peek (s.sp.toNat + 1) } }) ∧
    (s.params.memSize ≤ s.sp.toNat + 1 → exec .xthl s = .fault (.outOfBoundsAccess (s.sp.toNat + 1)))

/-! ### 47_io_int_halt_nop.md -/

/-- R185: `IN`. The byte is the host's: whatever byte the host answers lands in `A`, and no flag changes. That an answer
is listed in `ioAnswers`, used up in order and recorded in `ioHistory` is the model's form of the I/O Port (log 3).
That `IN` loads `A` is the spec's own decision D18.
The operand fetch fault is the spec's own decision D10, D21 (log 10).
`IN` completes too when the host has listed no answer; the byte is then the free value of `Config.ioRead`, of which
nothing is known (log 3, the model's choice; 93 U12), and it is the byte recorded. -/
def Obligations.InDeliversHostsAnswer : Prop :=
  (∀ port : Byte, encode (.inPort port) = [0xDB, port]) ∧
  (∀ (port v : Byte) (later : List Byte) (s : State), s.ioAnswers = v :: later →
    exec (.inPort port) s = .next { stepped s 2 with
      regs := { s.regs with a := v }, ioAnswers := later, ioHistory := .input port v :: s.ioHistory }) ∧
  (∀ (port : Byte) (s : State), s.ioAnswers = [] → ∃ v : Byte,
    exec (.inPort port) s = .next { stepped s 2 with
      regs := { s.regs with a := v }, ioHistory := .input port v :: s.ioHistory }) ∧
  OperandFetchFaults 0xDB 2

/-- R186: `OUT`. The host sees `IoWrite(port, A)`; `ioHistory` is the model's record of it (log 3).
That `OUT` sends `A` is the spec's own decision D18.
The operand fetch fault is the spec's own decision D10, D21 (log 10). -/
def Obligations.OutSendsAccumulator : Prop :=
  (∀ port : Byte, encode (.outPort port) = [0xD3, port]) ∧
  (∀ (port : Byte) (s : State), exec (.outPort port) s =
    .next { stepped s 2 with ioHistory := .output port s.regs.a :: s.ioHistory }) ∧
  OperandFetchFaults 0xD3 2

/-- R187, R188: `EI`, `DI`.
That both take effect at once is the spec's own decision D20 (log 12), the opcode values its D3 (log 6), the successor
`pc` its D11 (log 10). -/
def Obligations.InterruptEnableResult : Prop :=
  encode .ei = [0xFB] ∧ encode .di = [0xF3] ∧
  ∀ s : State, exec .ei s = .next { stepped s 1 with inte := true } ∧
    exec .di s = .next { stepped s 1 with inte := false }

/-- R189, R191, R192: `HLT` advances `pc` and returns `Halted` (the field `result`, log 4); `NOP` and its seven aliases
`08 10 18 20 28 30 38` advance `pc`; nothing else changes.
That `pc` moves past `HLT` is the spec's own decision D19. -/
def Obligations.HaltAndNopResult : Prop :=
  encode .hlt = [0x76] ∧ encode .nop = [0x00] ∧ (∀ x : BitVec 3, encode (.nopAlias x) = [byte (8 * x.toNat)]) ∧
  ∀ s : State,
    exec .hlt s = .next { s with pc := nextPc s 1, result := .halted } ∧
    exec .nop s = .next (stepped s 1) ∧
    ∀ x : BitVec 3, exec (.nopAlias x) s = .next (stepped s 1)

/-! ### 48_unlisted.md -/

/-- R197, R198, R199, R202, R203: `LDA`, `STA`, `LDAX`, `STAX`.
The actions are the spec's, from general knowledge (93 G8), under its parameter D7.
The operand fetch fault is the spec's own decision D10, D21 (log 10). -/
def Obligations.UnlistedByteTransferResult : Prop :=
  (∀ w : Word, encode (.lda w) = 0x3A :: lowHigh w ∧ encode (.sta w) = 0x32 :: lowHigh w ∧
    FaultsUnlisted (.lda w) 0x3A ∧ FaultsUnlisted (.sta w) 0x32) ∧
  (∀ p : IndirectPair, encode (.ldax p) = [byte (0x0A + 16 * pairCode (ofIndirect p))] ∧
    encode (.stax p) = [byte (0x02 + 16 * pairCode (ofIndirect p))] ∧
    FaultsUnlisted (.ldax p) (0x0A + 16 * pairCode (ofIndirect p)) ∧
    FaultsUnlisted (.stax p) (0x02 + 16 * pairCode (ofIndirect p))) ∧
  (∀ s : State, s.params.unlistedOps = .i8080 →
    (∀ w : Word,
      exec (.lda w) s = .next { stepped s 3 with regs := { s.regs with a := s.peek w.toNat } } ∧
      ∃ t, exec (.sta w) s = .next t ∧ OnlyByte s t w.toNat s.regs.a ∧ t = { stepped s 3 with mem := t.mem }) ∧
    (∀ p : IndirectPair,
      exec (.ldax p) s = .next { stepped s 1 with regs := { s.regs with a := s.peek (pairVal s (ofIndirect p)) } } ∧
      ∃ t, exec (.stax p) s = .next t ∧ OnlyByte s t (pairVal s (ofIndirect p)) s.regs.a ∧
        t = { stepped s 1 with mem := t.mem })) ∧
  UnlistedFetchFaults 0x3A ∧ UnlistedFetchFaults 0x32

/-- R197, R200, R201: `LHLD`, `SHLD`.
The actions are the spec's, from general knowledge (93 G8), under its parameter D7.
The faults at `addr + 1` and of the operand fetch are the spec's own decisions D10, D21 (log 10). -/
def Obligations.UnlistedWordTransferResult : Prop :=
  (∀ w : Word, encode (.lhld w) = 0x2A :: lowHigh w ∧ encode (.shld w) = 0x22 :: lowHigh w ∧
    FaultsUnlisted (.lhld w) 0x2A ∧ FaultsUnlisted (.shld w) 0x22) ∧
  (∀ (w : Word) (s : State), s.params.unlistedOps = .i8080 →
    (w.toNat + 1 < s.params.memSize →
      exec (.lhld w) s = .next { stepped s 3 with regs :=
        { s.regs with l := s.peek w.toNat, h := s.peek (w.toNat + 1) } } ∧
      ∃ t, exec (.shld w) s = .next t ∧ OnlyTwoBytes s t w.toNat s.regs.l (w.toNat + 1) s.regs.h ∧
        t = { stepped s 3 with mem := t.mem }) ∧
    (s.params.memSize ≤ w.toNat + 1 →
      exec (.lhld w) s = .fault (.outOfBoundsAccess (w.toNat + 1)) ∧
      exec (.shld w) s = .fault (.outOfBoundsAccess (w.toNat + 1)))) ∧
  UnlistedFetchFaults 0x2A ∧ UnlistedFetchFaults 0x22

/-- R197, R204, R205: `INX`, `DCX`; no flag changes.
The actions are the spec's, from general knowledge (93 G8), under its parameter D7. -/
def Obligations.UnlistedPairStepResult : Prop :=
  (∀ p : Pair, encode (.inx p) = [byte (0x03 + 16 * pairCode p)] ∧ encode (.dcx p) = [byte (0x0B + 16 * pairCode p)] ∧
    FaultsUnlisted (.inx p) (0x03 + 16 * pairCode p) ∧ FaultsUnlisted (.dcx p) (0x0B + 16 * pairCode p)) ∧
  ∀ (p : Pair) (s : State), s.params.unlistedOps = .i8080 →
    (∃ t, exec (.inx p) s = .next t ∧ pairVal t p = (pairVal s p + 1) % 65536 ∧
      (∀ q, q ≠ p → pairVal t q = pairVal s q) ∧ t.regs.a = s.regs.a ∧
      t = { stepped s 1 with regs := t.regs, sp := t.sp }) ∧
    (∃ t, exec (.dcx p) s = .next t ∧ pairVal t p = (pairVal s p + 65535) % 65536 ∧
      (∀ q, q ≠ p → pairVal t q = pairVal s q) ∧ t.regs.a = s.regs.a ∧
      t = { stepped s 1 with regs := t.regs, sp := t.sp })

/-- R197, R206: `DAD`; `CY` only.
The action is the spec's, from general knowledge (93 G8), under its parameter D7. -/
def Obligations.UnlistedDadResult : Prop :=
  (∀ p : Pair, encode (.dad p) = [byte (0x09 + 16 * pairCode p)] ∧ FaultsUnlisted (.dad p) (0x09 + 16 * pairCode p)) ∧
  ∀ (p : Pair) (s : State), s.params.unlistedOps = .i8080 →
    ∃ t, exec (.dad p) s = .next t ∧ pairVal t .hl = (pairVal s .hl + pairVal s p) % 65536 ∧
      t = { stepped s 1 with
        regs := { s.regs with h := t.regs.h, l := t.regs.l }
        flags := { s.flags with cy := decide (65535 < pairVal s .hl + pairVal s p) } }

/-- R197, R210, R211, R212: `CMA`, `STC`, `CMC`.
The actions are the spec's, from general knowledge (93 G8), under its parameter D7. -/
def Obligations.UnlistedComplementCarryResult : Prop :=
  encode .cma = [0x2F] ∧ encode .stc = [0x37] ∧ encode .cmc = [0x3F] ∧
  FaultsUnlisted .cma 0x2F ∧ FaultsUnlisted .stc 0x37 ∧ FaultsUnlisted .cmc 0x3F ∧
  ∀ s : State, s.params.unlistedOps = .i8080 →
    exec .cma s = .next { stepped s 1 with regs := { s.regs with a := byte (255 - s.regs.a.toNat) } } ∧
    exec .stc s = .next { stepped s 1 with flags := { s.flags with cy := true } } ∧
    exec .cmc s = .next { stepped s 1 with flags := { s.flags with cy := decide (s.flags.cy = false) } }

/-- R197, R213: `RST`.
The action is the spec's, from general knowledge (93 G8), under its parameter D7.
The fault with address -1 is the spec's own decision D10 (log 10). -/
def Obligations.UnlistedRstResult : Prop :=
  ∀ n : BitVec 3, encode (.rst n) = [byte (0xC7 + 8 * n.toNat)] ∧ FaultsUnlisted (.rst n) (0xC7 + 8 * n.toNat) ∧
    ∀ s : State, s.params.unlistedOps = .i8080 → Calls (.rst n) s (BitVec.ofNat 16 (8 * n.toNat)) 1

/-- R209, R214: `DAA` and the five undefined values `CB D9 DD ED FD` always fault, under both settings.
The stop is the spec's own decision D8, D9. -/
def Obligations.AlwaysUnimplemented : Prop :=
  ∀ s : State,
    exec .daa s = .fault (.unimplementedOpcode 0x27 s.pc) ∧
    (∀ w, exec (.jmpAlias w) s = .fault (.unimplementedOpcode 0xCB s.pc)) ∧
    exec .retAlias s = .fault (.unimplementedOpcode 0xD9 s.pc) ∧
    (∀ w, exec (.callAlias 1 w) s = .fault (.unimplementedOpcode 0xDD s.pc)) ∧
    (∀ w, exec (.callAlias 2 w) s = .fault (.unimplementedOpcode 0xED s.pc)) ∧
    (∀ w, exec (.callAlias 3 w) s = .fault (.unimplementedOpcode 0xFD s.pc))

/-- R196: an instruction that is not one of the unlisted does the same under both settings of `UNLISTED_OPS`.
The parameter is the spec's own decision D7; the state carries it (log 1). -/
def Obligations.ListedIgnoresUnlistedOps : Prop :=
  ∀ (i : Instr) (u : UnlistedOps) (s : State), groupOf i ≠ .unlisted →
    exec i (withOps u s) = mapResult (withOps u) (exec i s)

/-! ### Whole-machine rules -/

/-- Every step keeps memory in its canonical form and inside the store (R38, R39).
The canonical form is the model's own (log 2). -/
def Obligations.StepKeepsInvariant : Prop :=
  ∀ s t : State, s.Inv → step s = .next t → t.Inv

/-- The invariant holds at reset.
Reset memory lists nothing (log 2). -/
def Obligations.ResetInvariant : Prop := State.reset.Inv

/-- 10_state.md R32: the 94 bits of the CORE are zero after reset.
That the flags are zero too is the spec's own decision D25.
Construction also sets the model's own field `result` to `continued` (log 4); construction as an event of the host
is the model's choice (log 12). -/
def Obligations.ResetZeroesCore : Prop :=
  (∀ r, regVal State.reset r = 0) ∧ State.reset.sp = 0 ∧ State.reset.pc = 0 ∧ State.reset.inte = false ∧
  State.reset.flags = { z := false, s := false, p := false, cy := false, ac := false } ∧
  ∀ (s : State), (∀ r, regVal (s.host .construct) r = 0) ∧
    s.host .construct = { s with
      regs := (s.host .construct).regs, sp := 0, pc := 0, inte := false, result := .continued
      flags := { z := false, s := false, p := false, cy := false, ac := false } }

/-- 10_state.md R15, R16: `pc` is the target of a taken transfer, with nothing added, else the successor in sequence.
The spec's own decisions D1, D11. -/
def Obligations.PcAdvanceRule : Prop :=
  ∀ (i : Instr) (s t : State), exec i s = .next t →
    t.pc = (transferTo s i).getD (nextPc s (encode i).length)

/-- R17, R18: `sp` falls by 2 on a push, rises by 2 on a pop, is loaded by `LXI SP`, `SPHL`, `INX SP`, `DCX SP`, and is
kept by everything else.
Modulo 65536 by the spec's own decision D11. -/
def Obligations.StackPointerRule : Prop :=
  ∀ (i : Instr) (s t : State), exec i s = .next t → t.sp = spAfter s i

/-- R20, R24: a flag that R20's table does not say an instruction writes keeps its value; so `AC` is written by
`POP PSW` alone.
That a flag a family does not name is kept is the spec's own decision D16. -/
def Obligations.FlagTable : Prop :=
  ∀ (i : Instr) (s t : State), exec i s = .next t → FlagsKept (flagRow i) s.flags t.flags

/-- R11, R12: a register that an instruction does not name, explicitly or as its implicit operand, keeps its value. -/
def Obligations.RegisterFrame : Prop :=
  ∀ (i : Instr) (s t : State) (r : Reg), exec i s = .next t → r ∉ regsWritten i → regVal t r = regVal s r

/-- R44: an instruction changes no byte of memory but the ones R44's table says it writes. -/
def Obligations.MemoryFrame : Prop :=
  ∀ (i : Instr) (s t : State) (a : Nat), exec i s = .next t → a ∉ storesTo s i → t.peek a = s.peek a

/-- R27, R6, R184: only `EI` and `DI` change `inte`; the parameters are fixed for the whole run; only `IN` and `OUT` use
the I/O Port, once each, and only `IN` uses up an answer of the host.
The I/O fields are the model's (log 3), the parameters stand in the state (log 1). -/
def Obligations.ControlAndPortFrame : Prop :=
  ∀ (i : Instr) (s t : State), exec i s = .next t →
    (i ≠ .ei → i ≠ .di → t.inte = s.inte) ∧ t.params = s.params ∧
    ((∀ port, i ≠ .inPort port ∧ i ≠ .outPort port) → t.ioHistory = s.ioHistory ∧ t.ioAnswers = s.ioAnswers) ∧
    (∀ port, i = .outPort port → t.ioAnswers = s.ioAnswers)

/-- R226, R189: a step that does not fault returns `Halted` for `HLT` and `Continue` for every other instruction.
The field `result` is the model's record of what the step returned (log 4). -/
def Obligations.OnlyHltHalts : Prop :=
  ∀ (i : Instr) (s t : State), exec i s = .next t → (t.result = .halted ↔ i = .hlt)

/-- R229, R259: a run ends at the first step that does not return `Continue`. Where that step faults, the state at the
end is the one that the steps before it left; where it returns `Halted`, the one that the `HLT` left; where the budget
is used up, every step of it returned `Continue`.
Ending there is the spec's own decision D19, faults that change nothing D12; `result` is log 4. -/
def Obligations.RunEndStates : Prop :=
  ∀ (fuel : Nat) (s t : State) (k : Nat),
    (∀ f, run fuel s = .faulted f t k ↔
      k < fuel ∧ AllContinued s k ∧ Host.Core.run core k s = .next t ∧ step t = .fault f) ∧
    (run fuel s = .halted t (k + 1) ↔
      k < fuel ∧ AllContinued s k ∧ Host.Core.run core (k + 1) s = .next t ∧ t.result = .halted) ∧
    (run fuel s = .outOfFuel t k ↔ k = fuel ∧ AllContinued s k ∧ Host.Core.run core k s = .next t)

/-- R258: every action of the host between steps keeps the invariant.
What a host may do is the spec's own decision D24.
`HostAction` and the dropping of writes outside the store are the model's choice (log 12), the canonical form its
own (log 2). -/
def Obligations.HostActionsKeepInvariant : Prop :=
  ∀ (s : State) (h : HostAction), s.Inv → (s.host h).Inv

/-! ### Properties of two instructions -/

/-- R120: `DCR` undoes `INR` and `INR` undoes `DCR` on every operand. -/
def Obligations.IncrementDecrementInverse : Prop :=
  ∀ (o : Operand) (s : State),
    (∃ t u, exec (.inr o) s = .next t ∧ exec (.dcr o) t = .next u ∧ operandVal u o = operandVal s o) ∧
    (∃ t u, exec (.dcr o) s = .next t ∧ exec (.inr o) t = .next u ∧ operandVal u o = operandVal s o)

/-- R136: `PUSH rp` then `POP rp` restores the pair, whatever the registers held in between, and the stack pointer. -/
def Obligations.PushThenPopRestores : Prop :=
  ∀ (p : StackPair) (s : State) (rs : Regs), 2 ≤ s.sp.toNat →
    ∃ t u, exec (.push p) s = .next t ∧ exec (.pop p) { t with regs := rs } = .next u ∧
      pairVal u (ofStack p) = pairVal s (ofStack p) ∧ u.sp = s.sp

/-- R135: `PUSH PSW` then `POP PSW` reproduces the five flags and `A` exactly, whatever they were in between. -/
def Obligations.PushPswThenPopPswRestores : Prop :=
  ∀ (s : State) (rs : Regs) (f : Flags), 2 ≤ s.sp.toNat →
    ∃ t u, exec .pushPsw s = .next t ∧ exec .popPsw { t with regs := rs, flags := f } = .next u ∧
      u.flags = s.flags ∧ u.regs.a = s.regs.a ∧ u.sp = s.sp

/-- R169: `CALL target` then `RET` comes back to the instruction after the call, with the stack pointer restored. -/
def Obligations.CallThenRetReturns : Prop :=
  ∀ (w : Word) (s : State), 2 ≤ s.sp.toNat →
    ∃ t u, exec (.call w) s = .next t ∧ t.pc = w ∧ exec .ret t = .next u ∧ u.pc = nextPc s 3 ∧ u.sp = s.sp

/-- R176, R177: two `XCHG`, and two `XTHL`, restore everything but `pc`. -/
def Obligations.ExchangeTwiceRestores : Prop :=
  ∀ s : State,
    (∃ t, exec .xchg s = .next t ∧ exec .xchg t = .next (stepped s 2)) ∧
    (s.sp.toNat + 1 < s.params.memSize → ∃ t u, exec .xthl s = .next t ∧ exec .xthl t = .next u ∧
      (∀ a, u.peek a = s.peek a) ∧ u = { stepped s 2 with mem := u.mem })
end

