-- ==== Sys2Proof/Laws/Bits.lean ====
section
/-! SUPPORT. The halves of a 16-bit value, and the operand codes against their inverses. -/

namespace Sys2Proof

@[simp] theorem hi8_pair16 (hi lo : Byte) : hi8 (pair16 hi lo) = hi := by
  apply BitVec.eq_of_toNat_eq
  simp only [hi8, pair16, BitVec.extractLsb'_toNat, BitVec.toNat_append, Nat.shiftRight_eq_div_pow]
  rw [← Nat.shiftLeft_add_eq_or_of_lt lo.isLt, Nat.shiftLeft_eq]
  have := hi.isLt; have := lo.isLt
  omega

@[simp] theorem lo8_pair16 (hi lo : Byte) : lo8 (pair16 hi lo) = lo := by
  apply BitVec.eq_of_toNat_eq
  simp only [lo8, pair16, BitVec.extractLsb'_toNat, BitVec.toNat_append, Nat.shiftRight_zero]
  rw [← Nat.shiftLeft_add_eq_or_of_lt lo.isLt, Nat.shiftLeft_eq]
  have := hi.isLt; have := lo.isLt
  omega

/-- `hi:lo` is `hi * 256 + lo` (R7). -/
theorem pair16_toNat (hi lo : Byte) : (pair16 hi lo).toNat = hi.toNat * 256 + lo.toNat := by
  simp only [pair16, BitVec.toNat_append]
  rw [← Nat.shiftLeft_add_eq_or_of_lt lo.isLt, Nat.shiftLeft_eq]

theorem hi8_toNat (w : Word) : (hi8 w).toNat = w.toNat / 256 := by
  simp only [hi8, BitVec.extractLsb'_toNat, Nat.shiftRight_eq_div_pow]
  have := w.isLt
  omega

theorem lo8_toNat (w : Word) : (lo8 w).toNat = w.toNat % 256 := by
  simp only [lo8, BitVec.extractLsb'_toNat, Nat.shiftRight_zero]

@[simp] theorem pair16_hi8_lo8 (w : Word) : pair16 (hi8 w) (lo8 w) = w := by
  apply BitVec.eq_of_toNat_eq
  rw [pair16_toNat, hi8_toNat, lo8_toNat]
  omega

@[simp] theorem Operand.ofCode_code (o : Operand) : Operand.ofCode o.code = o := by
  cases o with
  | reg r => cases r <;> rfl
  | m => rfl

theorem Operand.code_ofCode : ∀ c : BitVec 3, (Operand.ofCode c).code = c := by decide

@[simp] theorem Pair.ofCode_code (p : Pair) : Pair.ofCode p.code = p := by cases p <;> rfl

theorem Pair.code_ofCode : ∀ c : BitVec 2, (Pair.ofCode c).code = c := by decide

/-- The operand bytes of an instruction do not reach its opcode byte: `LEN` is `1 + length(trailing bytes)` (R15). -/
theorem encode_length (i : Instr) : (encode i).length = i.operandBytes.length + 1 := rfl

end Sys2Proof
end

