-- ==== Sys2Proof/Laws/Decode.lean ====
section
/-! SUPPORT. What the opcode map gives for each of the 256 opcode values, said once: the instruction is well-formed, its
bytes are the opcode byte and the operand bytes, and there are as many as the length table says. -/

namespace Sys2Proof

/-- Two opcode values that agree on all numbers below 256 agree: from numbers to bytes. -/
theorem Byte.forall_of_nat {P : Byte → Prop} (h : ∀ n, n < 256 → P (BitVec.ofNat 8 n)) (op : Byte) : P op := by
  simpa using h op.toNat op.isLt

/-- What `opForm op` should be. -/
def OpForm.Good (op : Byte) : OpForm → Prop
  | .f1 i  => i.wellFormed = true ∧ encode i = [op] ∧ lengthOf op = 1
  | .f2 mk => (∀ b, (mk b).wellFormed = true ∧ encode (mk b) = [op, b]) ∧ lengthOf op = 2
  | .f3 mk => (∀ w, (mk w).wellFormed = true ∧ encode (mk w) = [op, lo8 w, hi8 w]) ∧ lengthOf op = 3

/-- The opcode map, the encoder and the length table agree on every opcode value (R65, R66). -/
theorem opForm_good : ∀ op : Byte, (opForm op).Good op := by
  apply Byte.forall_of_nat
  intro n hn
  interval_cases n <;> first | exact ⟨rfl, rfl, rfl⟩ | exact ⟨fun _ => ⟨rfl, rfl⟩, rfl⟩

end Sys2Proof
end

