-- ==== Sys2Proof/Laws/State.lean ====
section
/-! SUPPORT. One lemma for each field of `State` and each named update of it, and what the accessors read after an
update, so that no later proof unfolds a record update. -/

namespace Sys2Proof.Machine

/-! ### `State.setReg` -/

@[simp] theorem setReg_regs (s : State) (r : Reg) (v : Byte) : (s.setReg r v).regs = s.regs.set r v := rfl
@[simp] theorem setReg_sp (s : State) (r : Reg) (v : Byte) : (s.setReg r v).sp = s.sp := rfl
@[simp] theorem setReg_pc (s : State) (r : Reg) (v : Byte) : (s.setReg r v).pc = s.pc := rfl
@[simp] theorem setReg_inte (s : State) (r : Reg) (v : Byte) : (s.setReg r v).inte = s.inte := rfl
@[simp] theorem setReg_flags (s : State) (r : Reg) (v : Byte) : (s.setReg r v).flags = s.flags := rfl
@[simp] theorem setReg_mem (s : State) (r : Reg) (v : Byte) : (s.setReg r v).mem = s.mem := rfl
@[simp] theorem setReg_params (s : State) (r : Reg) (v : Byte) : (s.setReg r v).params = s.params := rfl
@[simp] theorem setReg_result (s : State) (r : Reg) (v : Byte) : (s.setReg r v).result = s.result := rfl
@[simp] theorem setReg_ioHistory (s : State) (r : Reg) (v : Byte) : (s.setReg r v).ioHistory = s.ioHistory := rfl
@[simp] theorem setReg_ioAnswers (s : State) (r : Reg) (v : Byte) : (s.setReg r v).ioAnswers = s.ioAnswers := rfl

/-! ### `State.setSp` -/

@[simp] theorem setSp_regs (s : State) (w : Word) : (s.setSp w).regs = s.regs := rfl
@[simp] theorem setSp_sp (s : State) (w : Word) : (s.setSp w).sp = w := rfl
@[simp] theorem setSp_pc (s : State) (w : Word) : (s.setSp w).pc = s.pc := rfl
@[simp] theorem setSp_inte (s : State) (w : Word) : (s.setSp w).inte = s.inte := rfl
@[simp] theorem setSp_flags (s : State) (w : Word) : (s.setSp w).flags = s.flags := rfl
@[simp] theorem setSp_mem (s : State) (w : Word) : (s.setSp w).mem = s.mem := rfl
@[simp] theorem setSp_params (s : State) (w : Word) : (s.setSp w).params = s.params := rfl
@[simp] theorem setSp_result (s : State) (w : Word) : (s.setSp w).result = s.result := rfl
@[simp] theorem setSp_ioHistory (s : State) (w : Word) : (s.setSp w).ioHistory = s.ioHistory := rfl
@[simp] theorem setSp_ioAnswers (s : State) (w : Word) : (s.setSp w).ioAnswers = s.ioAnswers := rfl

/-! ### `State.setFlags` -/

@[simp] theorem setFlags_regs (s : State) (f : Flags) : (s.setFlags f).regs = s.regs := rfl
@[simp] theorem setFlags_sp (s : State) (f : Flags) : (s.setFlags f).sp = s.sp := rfl
@[simp] theorem setFlags_pc (s : State) (f : Flags) : (s.setFlags f).pc = s.pc := rfl
@[simp] theorem setFlags_inte (s : State) (f : Flags) : (s.setFlags f).inte = s.inte := rfl
@[simp] theorem setFlags_flags (s : State) (f : Flags) : (s.setFlags f).flags = f := rfl
@[simp] theorem setFlags_mem (s : State) (f : Flags) : (s.setFlags f).mem = s.mem := rfl
@[simp] theorem setFlags_params (s : State) (f : Flags) : (s.setFlags f).params = s.params := rfl
@[simp] theorem setFlags_result (s : State) (f : Flags) : (s.setFlags f).result = s.result := rfl
@[simp] theorem setFlags_ioHistory (s : State) (f : Flags) : (s.setFlags f).ioHistory = s.ioHistory := rfl
@[simp] theorem setFlags_ioAnswers (s : State) (f : Flags) : (s.setFlags f).ioAnswers = s.ioAnswers := rfl

/-! ### `State.setInte` -/

@[simp] theorem setInte_regs (s : State) (v : Bool) : (s.setInte v).regs = s.regs := rfl
@[simp] theorem setInte_sp (s : State) (v : Bool) : (s.setInte v).sp = s.sp := rfl
@[simp] theorem setInte_pc (s : State) (v : Bool) : (s.setInte v).pc = s.pc := rfl
@[simp] theorem setInte_inte (s : State) (v : Bool) : (s.setInte v).inte = v := rfl
@[simp] theorem setInte_flags (s : State) (v : Bool) : (s.setInte v).flags = s.flags := rfl
@[simp] theorem setInte_mem (s : State) (v : Bool) : (s.setInte v).mem = s.mem := rfl
@[simp] theorem setInte_params (s : State) (v : Bool) : (s.setInte v).params = s.params := rfl
@[simp] theorem setInte_result (s : State) (v : Bool) : (s.setInte v).result = s.result := rfl
@[simp] theorem setInte_ioHistory (s : State) (v : Bool) : (s.setInte v).ioHistory = s.ioHistory := rfl
@[simp] theorem setInte_ioAnswers (s : State) (v : Bool) : (s.setInte v).ioAnswers = s.ioAnswers := rfl

/-! ### `State.poke` -/

@[simp] theorem poke_regs (s : State) (a : Nat) (v : Byte) : (s.poke a v).regs = s.regs := rfl
@[simp] theorem poke_sp (s : State) (a : Nat) (v : Byte) : (s.poke a v).sp = s.sp := rfl
@[simp] theorem poke_pc (s : State) (a : Nat) (v : Byte) : (s.poke a v).pc = s.pc := rfl
@[simp] theorem poke_inte (s : State) (a : Nat) (v : Byte) : (s.poke a v).inte = s.inte := rfl
@[simp] theorem poke_flags (s : State) (a : Nat) (v : Byte) : (s.poke a v).flags = s.flags := rfl
@[simp] theorem poke_mem (s : State) (a : Nat) (v : Byte) : (s.poke a v).mem = Memory.write s.mem a v := rfl
@[simp] theorem poke_params (s : State) (a : Nat) (v : Byte) : (s.poke a v).params = s.params := rfl
@[simp] theorem poke_result (s : State) (a : Nat) (v : Byte) : (s.poke a v).result = s.result := rfl
@[simp] theorem poke_ioHistory (s : State) (a : Nat) (v : Byte) : (s.poke a v).ioHistory = s.ioHistory := rfl
@[simp] theorem poke_ioAnswers (s : State) (a : Nat) (v : Byte) : (s.poke a v).ioAnswers = s.ioAnswers := rfl

/-! ### `State.jumpTo` -/

@[simp] theorem jumpTo_regs (s : State) (w : Word) : (s.jumpTo w).regs = s.regs := rfl
@[simp] theorem jumpTo_sp (s : State) (w : Word) : (s.jumpTo w).sp = s.sp := rfl
@[simp] theorem jumpTo_pc (s : State) (w : Word) : (s.jumpTo w).pc = w := rfl
@[simp] theorem jumpTo_inte (s : State) (w : Word) : (s.jumpTo w).inte = s.inte := rfl
@[simp] theorem jumpTo_flags (s : State) (w : Word) : (s.jumpTo w).flags = s.flags := rfl
@[simp] theorem jumpTo_mem (s : State) (w : Word) : (s.jumpTo w).mem = s.mem := rfl
@[simp] theorem jumpTo_params (s : State) (w : Word) : (s.jumpTo w).params = s.params := rfl
@[simp] theorem jumpTo_result (s : State) (w : Word) : (s.jumpTo w).result = .continued := rfl
@[simp] theorem jumpTo_ioHistory (s : State) (w : Word) : (s.jumpTo w).ioHistory = s.ioHistory := rfl
@[simp] theorem jumpTo_ioAnswers (s : State) (w : Word) : (s.jumpTo w).ioAnswers = s.ioAnswers := rfl

/-! ### `State.setPair` and `State.setStackPair` -/

@[simp] theorem setPair_pc (s : State) (p : Pair) (w : Word) : (s.setPair p w).pc = s.pc := by cases p <;> rfl
@[simp] theorem setPair_inte (s : State) (p : Pair) (w : Word) : (s.setPair p w).inte = s.inte := by cases p <;> rfl
@[simp] theorem setPair_flags (s : State) (p : Pair) (w : Word) : (s.setPair p w).flags = s.flags := by cases p <;> rfl
@[simp] theorem setPair_mem (s : State) (p : Pair) (w : Word) : (s.setPair p w).mem = s.mem := by cases p <;> rfl
@[simp] theorem setPair_params (s : State) (p : Pair) (w : Word) : (s.setPair p w).params = s.params := by cases p <;> rfl
@[simp] theorem setPair_result (s : State) (p : Pair) (w : Word) : (s.setPair p w).result = s.result := by cases p <;> rfl
@[simp] theorem setPair_ioHistory (s : State) (p : Pair) (w : Word) : (s.setPair p w).ioHistory = s.ioHistory := by cases p <;> rfl
@[simp] theorem setPair_ioAnswers (s : State) (p : Pair) (w : Word) : (s.setPair p w).ioAnswers = s.ioAnswers := by cases p <;> rfl

@[simp] theorem setStackPair_sp (s : State) (p : StackPair) (hi lo : Byte) :
    (s.setStackPair p hi lo).sp = s.sp := by cases p <;> rfl
@[simp] theorem setStackPair_pc (s : State) (p : StackPair) (hi lo : Byte) :
    (s.setStackPair p hi lo).pc = s.pc := by cases p <;> rfl
@[simp] theorem setStackPair_inte (s : State) (p : StackPair) (hi lo : Byte) :
    (s.setStackPair p hi lo).inte = s.inte := by cases p <;> rfl
@[simp] theorem setStackPair_flags (s : State) (p : StackPair) (hi lo : Byte) :
    (s.setStackPair p hi lo).flags = s.flags := by cases p <;> rfl
@[simp] theorem setStackPair_mem (s : State) (p : StackPair) (hi lo : Byte) :
    (s.setStackPair p hi lo).mem = s.mem := by cases p <;> rfl
@[simp] theorem setStackPair_params (s : State) (p : StackPair) (hi lo : Byte) :
    (s.setStackPair p hi lo).params = s.params := by cases p <;> rfl
@[simp] theorem setStackPair_result (s : State) (p : StackPair) (hi lo : Byte) :
    (s.setStackPair p hi lo).result = s.result := by cases p <;> rfl
@[simp] theorem setStackPair_ioHistory (s : State) (p : StackPair) (hi lo : Byte) :
    (s.setStackPair p hi lo).ioHistory = s.ioHistory := by cases p <;> rfl
@[simp] theorem setStackPair_ioAnswers (s : State) (p : StackPair) (hi lo : Byte) :
    (s.setStackPair p hi lo).ioAnswers = s.ioAnswers := by cases p <;> rfl

/-! ### The accessors after an update -/

@[simp] theorem setReg_inStore (s : State) (r : Reg) (v : Byte) (x : Int) :
    (s.setReg r v).inStore x = s.inStore x := rfl
@[simp] theorem setReg_peek (s : State) (r : Reg) (v : Byte) (x : Nat) :
    (s.setReg r v).peek x = s.peek x := rfl
@[simp] theorem setReg_after (s : State) (r : Reg) (v : Byte) (n : Nat) :
    (s.setReg r v).after n = s.after n := rfl
@[simp] theorem setSp_inStore (s : State) (w : Word) (x : Int) :
    (s.setSp w).inStore x = s.inStore x := rfl
@[simp] theorem setSp_peek (s : State) (w : Word) (x : Nat) :
    (s.setSp w).peek x = s.peek x := rfl
@[simp] theorem setSp_after (s : State) (w : Word) (n : Nat) :
    (s.setSp w).after n = s.after n := rfl
@[simp] theorem setSp_reg (s : State) (w : Word) (r : Reg) : (s.setSp w).reg r = s.reg r := by cases r <;> rfl
@[simp] theorem setFlags_inStore (s : State) (f : Flags) (x : Int) :
    (s.setFlags f).inStore x = s.inStore x := rfl
@[simp] theorem setFlags_peek (s : State) (f : Flags) (x : Nat) :
    (s.setFlags f).peek x = s.peek x := rfl
@[simp] theorem setFlags_after (s : State) (f : Flags) (n : Nat) :
    (s.setFlags f).after n = s.after n := rfl
@[simp] theorem setFlags_reg (s : State) (f : Flags) (r : Reg) : (s.setFlags f).reg r = s.reg r := by cases r <;> rfl
@[simp] theorem setFlags_pair (s : State) (f : Flags) (q : Pair) : (s.setFlags f).pair q = s.pair q := by cases q <;> rfl
@[simp] theorem setInte_inStore (s : State) (v : Bool) (x : Int) :
    (s.setInte v).inStore x = s.inStore x := rfl
@[simp] theorem setInte_peek (s : State) (v : Bool) (x : Nat) :
    (s.setInte v).peek x = s.peek x := rfl
@[simp] theorem setInte_after (s : State) (v : Bool) (n : Nat) :
    (s.setInte v).after n = s.after n := rfl
@[simp] theorem setInte_reg (s : State) (v : Bool) (r : Reg) : (s.setInte v).reg r = s.reg r := by cases r <;> rfl
@[simp] theorem setInte_pair (s : State) (v : Bool) (q : Pair) : (s.setInte v).pair q = s.pair q := by cases q <;> rfl
@[simp] theorem poke_inStore (s : State) (a : Nat) (v : Byte) (x : Int) :
    (s.poke a v).inStore x = s.inStore x := rfl
@[simp] theorem poke_after (s : State) (a : Nat) (v : Byte) (n : Nat) :
    (s.poke a v).after n = s.after n := rfl
@[simp] theorem poke_reg (s : State) (a : Nat) (v : Byte) (r : Reg) : (s.poke a v).reg r = s.reg r := by cases r <;> rfl
@[simp] theorem poke_pair (s : State) (a : Nat) (v : Byte) (q : Pair) : (s.poke a v).pair q = s.pair q := by cases q <;> rfl
@[simp] theorem jumpTo_inStore (s : State) (w : Word) (x : Int) :
    (s.jumpTo w).inStore x = s.inStore x := rfl
@[simp] theorem jumpTo_peek (s : State) (w : Word) (x : Nat) :
    (s.jumpTo w).peek x = s.peek x := rfl
@[simp] theorem jumpTo_reg (s : State) (w : Word) (r : Reg) : (s.jumpTo w).reg r = s.reg r := by cases r <;> rfl
@[simp] theorem jumpTo_pair (s : State) (w : Word) (q : Pair) : (s.jumpTo w).pair q = s.pair q := by cases q <;> rfl
@[simp] theorem setPair_inStore (s : State) (p : Pair) (w : Word) (x : Int) :
    (s.setPair p w).inStore x = s.inStore x := by cases p <;> rfl
@[simp] theorem setPair_peek (s : State) (p : Pair) (w : Word) (x : Nat) :
    (s.setPair p w).peek x = s.peek x := by cases p <;> rfl
@[simp] theorem setPair_after (s : State) (p : Pair) (w : Word) (n : Nat) :
    (s.setPair p w).after n = s.after n := by cases p <;> rfl
@[simp] theorem setStackPair_inStore (s : State) (p : StackPair) (hi lo : Byte) (x : Int) :
    (s.setStackPair p hi lo).inStore x = s.inStore x := by cases p <;> rfl
@[simp] theorem setStackPair_peek (s : State) (p : StackPair) (hi lo : Byte) (x : Nat) :
    (s.setStackPair p hi lo).peek x = s.peek x := by cases p <;> rfl
@[simp] theorem setStackPair_after (s : State) (p : StackPair) (hi lo : Byte) (n : Nat) :
    (s.setStackPair p hi lo).after n = s.after n := by cases p <;> rfl

/-- A register written reads as written, every other as before. -/
theorem setReg_reg (s : State) (r r' : Reg) (v : Byte) :
    (s.setReg r v).reg r' = if r' = r then v else s.reg r' := by
  cases r <;> cases r' <;> rfl

end Sys2Proof.Machine
end

