-- ==== Sys2Proof/Laws/Flags.lean ====
section
/-! SUPPORT. What each computation of the ALU changes, said once: `A` and the flags, and nothing else. -/

namespace Sys2Proof.Machine

/-- The sum (R90). -/
theorem aluAdd_eq (s : State) (x : Byte) (cin : Bool) :
    aluAdd s x cin =
      { s with
        regs := { s.regs with a := BitVec.ofNat 8 (s.regs.a.toNat + x.toNat + cin.toNat) }
        flags := { flagsZSP s.flags (BitVec.ofNat 8 (s.regs.a.toNat + x.toNat + cin.toNat)) with
          cy := decide (s.regs.a.toNat + x.toNat + cin.toNat > 255) } } := rfl

/-- The difference (R91). -/
theorem aluSub_eq (s : State) (x : Byte) (bin : Bool) :
    aluSub s x bin =
      { s with
        regs := { s.regs with a := BitVec.ofInt 8 ((s.regs.a.toNat : Int) - x.toNat - bin.toNat) }
        flags := flagsOfDifference s.flags ((s.regs.a.toNat : Int) - x.toNat - bin.toNat) } := rfl

/-- The comparison (R112). -/
theorem aluCmp_eq (s : State) (x : Byte) :
    aluCmp s x = { s with flags := flagsOfDifference s.flags ((s.regs.a.toNat : Int) - x.toNat) } := rfl

/-- The logical operations (R105). -/
theorem aluLogic_eq (s : State) (res : Byte) :
    aluLogic s res =
      { s with regs := { s.regs with a := res }, flags := { flagsZSP s.flags res with cy := false } } := rfl

/-- The flags of `INR` and `DCR` (R120). -/
theorem flagsIncDec_eq (s : State) (res : Byte) : flagsIncDec s res = { s with flags := flagsZSP s.flags res } := rfl

/-- The rotates (R123). -/
theorem rotateResult_eq (s : State) (a : Byte) (cy : Bool) :
    rotateResult s a cy = { s with regs := { s.regs with a := a }, flags := { s.flags with cy := cy } } := rfl

/-- `Z`, `S` and `P` are the only flags `flagsZSP` writes (R22). -/
@[simp] theorem flagsZSP_cy (f : Flags) (v : Byte) : (flagsZSP f v).cy = f.cy := rfl
@[simp] theorem flagsZSP_ac (f : Flags) (v : Byte) : (flagsZSP f v).ac = f.ac := rfl
@[simp] theorem flagsZSP_z (f : Flags) (v : Byte) : (flagsZSP f v).z = (v == 0) := rfl
@[simp] theorem flagsZSP_s (f : Flags) (v : Byte) : (flagsZSP f v).s = v.getLsbD 7 := rfl
@[simp] theorem flagsZSP_p (f : Flags) (v : Byte) : (flagsZSP f v).p = parity v := rfl

/-- Unpacking undoes packing, for every flag state (R26). -/
theorem pswUnpack_pswPack (f : Flags) : pswUnpack (pswPack f) = f := by
  rcases f with ⟨_ | _, _ | _, _ | _, _ | _, _ | _⟩ <;> rfl

end Sys2Proof.Machine
end

