-- ==== Sys2Proof/Laws/Ops.lean ====
section
/-! SUPPORT. What each shared operation can do, said once: when it answers a next state and which, when it faults and
with what, and that it never refuses by itself. Proofs cite these instead of unfolding the operations. -/

namespace Sys2Proof.Machine

variable {s t : State} {f : Fault} {r : Refusal}

theorem inStore_iff (s : State) (x : Int) : s.inStore x = true ↔ 0 ≤ x ∧ x < (s.params.memSize : Int) := by
  simp [State.inStore]

theorem memSize_ge (p : Params) : 65536 ≤ p.memSize := by simp [Params.memSize]

/-- An address that is the value of a 16-bit register lies in the store (R59, R228). -/
@[simp] theorem inStore_word (s : State) (w : Word) : s.inStore (w.toNat : Int) = true := by
  have h := memSize_ge s.params
  have := w.isLt
  rw [inStore_iff]
  omega

/-! ### `memRead` and `memWrite` -/

theorem memRead_next {x : Int} {k : Byte → Result} :
    memRead s x k = .next t ↔ s.inStore x = true ∧ k (s.peek x.toNat) = .next t := by
  unfold memRead raise
  split <;> simp_all

theorem memRead_fault {x : Int} {k : Byte → Result} :
    memRead s x k = .fault f ↔
      (s.inStore x = false ∧ f = .outOfBoundsAccess x) ∨ (s.inStore x = true ∧ k (s.peek x.toNat) = .fault f) := by
  unfold memRead raise
  by_cases h : s.inStore x = true
  · simp [h]
  · simp [h, eq_comm (a := f)]

theorem memRead_refused {x : Int} {k : Byte → Result} :
    memRead s x k = .refused r ↔ s.inStore x = true ∧ k (s.peek x.toNat) = .refused r := by
  unfold memRead raise
  split <;> simp_all

@[simp] theorem memRead_word (w : Word) (k : Byte → Result) : memRead s (w.toNat : Int) k = k (s.peek w.toNat) := by
  simp [memRead]

theorem memWrite_next {x : Int} {v : Byte} {k : State → Result} :
    memWrite s x v k = .next t ↔ s.inStore x = true ∧ k (s.poke x.toNat v) = .next t := by
  unfold memWrite raise
  split <;> simp_all

theorem memWrite_fault {x : Int} {v : Byte} {k : State → Result} :
    memWrite s x v k = .fault f ↔
      (s.inStore x = false ∧ f = .outOfBoundsAccess x) ∨ (s.inStore x = true ∧ k (s.poke x.toNat v) = .fault f) := by
  unfold memWrite raise
  by_cases h : s.inStore x = true
  · simp [h]
  · simp [h, eq_comm (a := f)]

theorem memWrite_refused {x : Int} {v : Byte} {k : State → Result} :
    memWrite s x v k = .refused r ↔ s.inStore x = true ∧ k (s.poke x.toNat v) = .refused r := by
  unfold memWrite raise
  split <;> simp_all

@[simp] theorem memWrite_word (w : Word) (v : Byte) (k : State → Result) :
    memWrite s (w.toNat : Int) v k = k (s.poke w.toNat v) := by
  simp [memWrite]

/-! ### Ending a step -/

@[simp] theorem advance_next {n : Nat} : advance s n = .next t ↔ s.jumpTo (s.after n) = t := by simp [advance]
@[simp] theorem advance_fault {n : Nat} : advance s n ≠ .fault f := by simp [advance]
@[simp] theorem advance_refused {n : Nat} : advance s n ≠ .refused r := by simp [advance]
@[simp] theorem transfer_next {w : Word} : transfer s w = .next t ↔ s.jumpTo w = t := by simp [transfer]
@[simp] theorem transfer_fault {w : Word} : transfer s w ≠ .fault f := by simp [transfer]
@[simp] theorem transfer_refused {w : Word} : transfer s w ≠ .refused r := by simp [transfer]

/-! ### The stack -/

/-- A push (R130): with `sp < 2` it faults with address -1 and nothing changes; else the two bytes land at `sp - 1` and
`sp - 2` and `sp` falls by 2. -/
theorem push16_eq (s : State) (hi lo : Byte) (k : State → Result) :
    push16 s hi lo k =
      if s.sp.toNat < 2 then raise (.outOfBoundsAccess (-1))
      else k (((s.poke (s.sp.toNat - 1) hi).poke (s.sp.toNat - 2) lo).setSp (s.sp - 2)) := by
  have hm := memSize_ge s.params
  have hsp := s.sp.isLt
  unfold push16 memWrite
  rcases Nat.lt_or_ge s.sp.toNat 2 with h | h
  · rw [if_pos h]
    rcases (by omega : s.sp.toNat = 0 ∨ s.sp.toNat = 1) with h0 | h1
    · simp [h0, State.inStore]
    · have : s.params.memSize ≠ 0 := by omega
      simp [h1, State.inStore, this]
  · rw [if_neg (c := s.sp.toNat < 2) (by omega)]
    have e1 : ((s.sp.toNat : Int) - 1).toNat = s.sp.toNat - 1 := by omega
    have e2 : ((s.sp.toNat : Int) - 2).toNat = s.sp.toNat - 2 := by omega
    have i1 : s.inStore ((s.sp.toNat : Int) - 1) = true := by rw [inStore_iff]; omega
    have i2 : s.inStore ((s.sp.toNat : Int) - 2) = true := by rw [inStore_iff]; omega
    simp [i1, i2, e1, e2]

/-- A pop (R131): it faults with address `sp + 1` when that is `MEM_SIZE` or more, which asks for `sp = 0xFFFF`; else
it yields the byte at `sp + 1`, the byte at `sp`, and `sp` raised by 2. -/
theorem pop16_eq (s : State) (k : Byte → Byte → State → Result) :
    pop16 s k =
      if s.sp.toNat + 1 < s.params.memSize
      then k (s.peek (s.sp.toNat + 1)) (s.peek s.sp.toNat) (s.setSp (s.sp + 2))
      else raise (.outOfBoundsAccess ((s.sp.toNat : Int) + 1)) := by
  have e : ((s.sp.toNat : Int) + 1).toNat = s.sp.toNat + 1 := by omega
  unfold pop16
  rw [memRead_word]
  unfold memRead
  by_cases h : s.sp.toNat + 1 < s.params.memSize
  · have i : s.inStore ((s.sp.toNat : Int) + 1) = true := by rw [inStore_iff]; omega
    simp [h, i, e]
  · have i : s.inStore ((s.sp.toNat : Int) + 1) = false := by
      rw [Bool.eq_false_iff, ne_eq, inStore_iff]; omega
    simp [h, i]

/-! ### Operands -/

/-- `src8` never faults (R59): its value is a register or the byte at `rp[HL]`. -/
theorem src8_eq (s : State) (o : Operand) (k : Byte → Result) :
    src8 s o k = k (match o with | .reg r => s.reg r | .m => s.peek (s.pair .hl).toNat) := by
  cases o <;> simp [src8, State.hlAddr]

/-- `dst8` never faults (R60). -/
theorem dst8_eq (s : State) (o : Operand) (v : Byte) (k : State → Result) :
    dst8 s o v k = k (match o with | .reg r => s.setReg r v | .m => s.poke (s.pair .hl).toNat v) := by
  cases o <;> simp [dst8, State.hlAddr]

/-! ### `UNLISTED_OPS` -/

@[simp] theorem unlisted_i8080 {i : Instr} {k : Result} (h : s.params.unlistedOps = .i8080) : unlisted s i k = k := by
  simp [unlisted, h]

@[simp] theorem unlisted_fault {i : Instr} {k : Result} (h : s.params.unlistedOps = .fault) :
    unlisted s i k = .fault (.unimplementedOpcode i.opcode s.pc) := by
  simp [unlisted, h, raiseUnimplemented, raise]

/-! ### The invariant -/

theorem Inv.poke {x : Int} (h : s.Inv) (hx : s.inStore x = true) (v : Byte) : (s.poke x.toNat v).Inv := by
  rw [inStore_iff] at hx
  refine ⟨Memory.wf_write h.1 _ _, Memory.within_write h.2 ?_ _⟩
  have := hx.1
  have := hx.2
  omega

/-- The invariant reads only the memory and the parameters. -/
theorem Inv.of_eq (h : s.Inv) (hm : t.mem = s.mem) (hp : t.params = s.params) : t.Inv := by
  unfold State.Inv at *
  rwa [hm, hp]

end Sys2Proof.Machine
end

