-- ==== Sys2Proof/Laws/PerInstr.lean ====
section
/-! SUPPORT. One lemma per constructor of `Instr` for the family `EncodeLength`: the length that the opcode byte selects
in R66's table is the number of bytes of the instruction. -/

namespace Sys2Proof.Laws

/-- `LEN` of the opcode byte is the number of bytes the encoder gives (R56, R66, R72). -/
def EncodeLength.Statement (i : Instr) : Prop := lengthOf i.opcode = (encode i).length

theorem EncodeLength.mvi (dst : Operand) (v : Byte) : EncodeLength.Statement (.mvi dst v) := by
  rcases dst with (_ | _ | _ | _ | _ | _ | _) | _ <;> rfl

theorem EncodeLength.lxi (p : Pair) (v : Word) : EncodeLength.Statement (.lxi p v) := by
  cases p <;> rfl

theorem EncodeLength.mov (dst src : Operand) : EncodeLength.Statement (.mov dst src) := by
  rcases dst with (_ | _ | _ | _ | _ | _ | _) | _ <;> rcases src with (_ | _ | _ | _ | _ | _ | _) | _ <;> rfl

theorem EncodeLength.add (src : Operand) : EncodeLength.Statement (.add src) := by
  rcases src with (_ | _ | _ | _ | _ | _ | _) | _ <;> rfl

theorem EncodeLength.adc (src : Operand) : EncodeLength.Statement (.adc src) := by
  rcases src with (_ | _ | _ | _ | _ | _ | _) | _ <;> rfl

theorem EncodeLength.sub (src : Operand) : EncodeLength.Statement (.sub src) := by
  rcases src with (_ | _ | _ | _ | _ | _ | _) | _ <;> rfl

theorem EncodeLength.sbb (src : Operand) : EncodeLength.Statement (.sbb src) := by
  rcases src with (_ | _ | _ | _ | _ | _ | _) | _ <;> rfl

theorem EncodeLength.adi (v : Byte) : EncodeLength.Statement (.adi v) := rfl

theorem EncodeLength.aci (v : Byte) : EncodeLength.Statement (.aci v) := rfl

theorem EncodeLength.sui (v : Byte) : EncodeLength.Statement (.sui v) := rfl

theorem EncodeLength.sbi (v : Byte) : EncodeLength.Statement (.sbi v) := rfl

theorem EncodeLength.ana (src : Operand) : EncodeLength.Statement (.ana src) := by
  rcases src with (_ | _ | _ | _ | _ | _ | _) | _ <;> rfl

theorem EncodeLength.xra (src : Operand) : EncodeLength.Statement (.xra src) := by
  rcases src with (_ | _ | _ | _ | _ | _ | _) | _ <;> rfl

theorem EncodeLength.ora (src : Operand) : EncodeLength.Statement (.ora src) := by
  rcases src with (_ | _ | _ | _ | _ | _ | _) | _ <;> rfl

theorem EncodeLength.ani (v : Byte) : EncodeLength.Statement (.ani v) := rfl

theorem EncodeLength.xri (v : Byte) : EncodeLength.Statement (.xri v) := rfl

theorem EncodeLength.ori (v : Byte) : EncodeLength.Statement (.ori v) := rfl

theorem EncodeLength.cmp (src : Operand) : EncodeLength.Statement (.cmp src) := by
  rcases src with (_ | _ | _ | _ | _ | _ | _) | _ <;> rfl

theorem EncodeLength.cpi (v : Byte) : EncodeLength.Statement (.cpi v) := rfl

theorem EncodeLength.inr (dst : Operand) : EncodeLength.Statement (.inr dst) := by
  rcases dst with (_ | _ | _ | _ | _ | _ | _) | _ <;> rfl

theorem EncodeLength.dcr (dst : Operand) : EncodeLength.Statement (.dcr dst) := by
  rcases dst with (_ | _ | _ | _ | _ | _ | _) | _ <;> rfl

theorem EncodeLength.rlc : EncodeLength.Statement .rlc := rfl

theorem EncodeLength.rrc : EncodeLength.Statement .rrc := rfl

theorem EncodeLength.ral : EncodeLength.Statement .ral := rfl

theorem EncodeLength.rar : EncodeLength.Statement .rar := rfl

theorem EncodeLength.push (p : StackPair) : EncodeLength.Statement (.push p) := by
  cases p <;> rfl

theorem EncodeLength.pop (p : StackPair) : EncodeLength.Statement (.pop p) := by
  cases p <;> rfl

theorem EncodeLength.pushPsw : EncodeLength.Statement .pushPsw := rfl

theorem EncodeLength.popPsw : EncodeLength.Statement .popPsw := rfl

theorem EncodeLength.jmp (addr : Word) : EncodeLength.Statement (.jmp addr) := rfl

theorem EncodeLength.jnz (addr : Word) : EncodeLength.Statement (.jnz addr) := rfl

theorem EncodeLength.jz (addr : Word) : EncodeLength.Statement (.jz addr) := rfl

theorem EncodeLength.jnc (addr : Word) : EncodeLength.Statement (.jnc addr) := rfl

theorem EncodeLength.jc (addr : Word) : EncodeLength.Statement (.jc addr) := rfl

theorem EncodeLength.jpo (addr : Word) : EncodeLength.Statement (.jpo addr) := rfl

theorem EncodeLength.jpe (addr : Word) : EncodeLength.Statement (.jpe addr) := rfl

theorem EncodeLength.jp (addr : Word) : EncodeLength.Statement (.jp addr) := rfl

theorem EncodeLength.jm (addr : Word) : EncodeLength.Statement (.jm addr) := rfl

theorem EncodeLength.call (addr : Word) : EncodeLength.Statement (.call addr) := rfl

theorem EncodeLength.cnz (addr : Word) : EncodeLength.Statement (.cnz addr) := rfl

theorem EncodeLength.cz (addr : Word) : EncodeLength.Statement (.cz addr) := rfl

theorem EncodeLength.cnc (addr : Word) : EncodeLength.Statement (.cnc addr) := rfl

theorem EncodeLength.cc (addr : Word) : EncodeLength.Statement (.cc addr) := rfl

theorem EncodeLength.cpo (addr : Word) : EncodeLength.Statement (.cpo addr) := rfl

theorem EncodeLength.cpe (addr : Word) : EncodeLength.Statement (.cpe addr) := rfl

theorem EncodeLength.cp (addr : Word) : EncodeLength.Statement (.cp addr) := rfl

theorem EncodeLength.cm (addr : Word) : EncodeLength.Statement (.cm addr) := rfl

theorem EncodeLength.ret : EncodeLength.Statement .ret := rfl

theorem EncodeLength.rnz : EncodeLength.Statement .rnz := rfl

theorem EncodeLength.rz : EncodeLength.Statement .rz := rfl

theorem EncodeLength.rnc : EncodeLength.Statement .rnc := rfl

theorem EncodeLength.rc : EncodeLength.Statement .rc := rfl

theorem EncodeLength.rpo : EncodeLength.Statement .rpo := rfl

theorem EncodeLength.rpe : EncodeLength.Statement .rpe := rfl

theorem EncodeLength.rp : EncodeLength.Statement .rp := rfl

theorem EncodeLength.rm : EncodeLength.Statement .rm := rfl

theorem EncodeLength.xchg : EncodeLength.Statement .xchg := rfl

theorem EncodeLength.xthl : EncodeLength.Statement .xthl := rfl

theorem EncodeLength.sphl : EncodeLength.Statement .sphl := rfl

theorem EncodeLength.pchl : EncodeLength.Statement .pchl := rfl

theorem EncodeLength.inPort (port : Byte) : EncodeLength.Statement (.inPort port) := rfl

theorem EncodeLength.outPort (port : Byte) : EncodeLength.Statement (.outPort port) := rfl

theorem EncodeLength.ei : EncodeLength.Statement .ei := rfl

theorem EncodeLength.di : EncodeLength.Statement .di := rfl

theorem EncodeLength.hlt : EncodeLength.Statement .hlt := rfl

theorem EncodeLength.nop : EncodeLength.Statement .nop := rfl

theorem EncodeLength.nopAlias (x : BitVec 3) : EncodeLength.Statement (.nopAlias x) := by
  match x with
  | 0#3 | 1#3 | 2#3 | 3#3 | 4#3 | 5#3 | 6#3 | 7#3 => rfl

theorem EncodeLength.lda (addr : Word) : EncodeLength.Statement (.lda addr) := rfl

theorem EncodeLength.sta (addr : Word) : EncodeLength.Statement (.sta addr) := rfl

theorem EncodeLength.lhld (addr : Word) : EncodeLength.Statement (.lhld addr) := rfl

theorem EncodeLength.shld (addr : Word) : EncodeLength.Statement (.shld addr) := rfl

theorem EncodeLength.ldax (p : IndirectPair) : EncodeLength.Statement (.ldax p) := by
  cases p <;> rfl

theorem EncodeLength.stax (p : IndirectPair) : EncodeLength.Statement (.stax p) := by
  cases p <;> rfl

theorem EncodeLength.inx (p : Pair) : EncodeLength.Statement (.inx p) := by
  cases p <;> rfl

theorem EncodeLength.dcx (p : Pair) : EncodeLength.Statement (.dcx p) := by
  cases p <;> rfl

theorem EncodeLength.dad (p : Pair) : EncodeLength.Statement (.dad p) := by
  cases p <;> rfl

theorem EncodeLength.daa : EncodeLength.Statement .daa := rfl

theorem EncodeLength.cma : EncodeLength.Statement .cma := rfl

theorem EncodeLength.stc : EncodeLength.Statement .stc := rfl

theorem EncodeLength.cmc : EncodeLength.Statement .cmc := rfl

theorem EncodeLength.rst (n : BitVec 3) : EncodeLength.Statement (.rst n) := by
  match n with
  | 0#3 | 1#3 | 2#3 | 3#3 | 4#3 | 5#3 | 6#3 | 7#3 => rfl

theorem EncodeLength.jmpAlias (addr : Word) : EncodeLength.Statement (.jmpAlias addr) := rfl

theorem EncodeLength.retAlias : EncodeLength.Statement .retAlias := rfl

theorem EncodeLength.callAlias (x : BitVec 2) (addr : Word) : EncodeLength.Statement (.callAlias x addr) := by
  match x with
  | 0#2 | 1#2 | 2#2 | 3#2 => rfl

end Sys2Proof.Laws
end

