-- ==== Sys2Proof/Laws/Step.lean ====
section
/-! SUPPORT. What a fetch can do, and what the forms that transfer control can do, said once. -/

namespace Sys2Proof.Machine

variable {s : State}

/-- An address of the store, read. -/
theorem memRead_in {n : Nat} (h : n < s.params.memSize) (k : Byte → Result) :
    memRead s (n : Int) k = k (s.peek n) := by
  have : s.inStore (n : Int) = true := by rw [inStore_iff]; omega
  simp [memRead, this]

/-- An address above the store, read. -/
theorem memRead_above {n : Nat} (h : s.params.memSize ≤ n) (k : Byte → Result) :
    memRead s (n : Int) k = .fault (.outOfBoundsAccess n) := by
  have : s.inStore (n : Int) = false := by rw [Bool.eq_false_iff, ne_eq, inStore_iff]; omega
  simp [memRead, this, raise]

/-- An address of the store, written. -/
theorem memWrite_in {n : Nat} (h : n < s.params.memSize) (v : Byte) (k : State → Result) :
    memWrite s (n : Int) v k = k (s.poke n v) := by
  have : s.inStore (n : Int) = true := by rw [inStore_iff]; omega
  simp [memWrite, this]

/-- An address above the store, written. -/
theorem memWrite_above {n : Nat} (h : s.params.memSize ≤ n) (v : Byte) (k : State → Result) :
    memWrite s (n : Int) v k = .fault (.outOfBoundsAccess n) := by
  have : s.inStore (n : Int) = false := by rw [Bool.eq_false_iff, ne_eq, inStore_iff]; omega
  simp [memWrite, this, raise]

/-- A fetch (R70, R233) of an opcode value that faults as unimplemented reads nothing more. -/
theorem fetch_unimplemented {run : Instr → Result}
    (h : faultsUnimplemented s.params.unlistedOps (s.peek s.pc.toNat) = true) :
    fetch s run = .fault (.unimplementedOpcode (s.peek s.pc.toNat) s.pc) := by
  simp [fetch, h, raiseUnimplemented, raise]

/-- A fetch of any other opcode value runs an instruction with that opcode byte, or faults at `MEM_SIZE`, the first
address above the store. -/
theorem fetch_runs {run : Instr → Result}
    (h : faultsUnimplemented s.params.unlistedOps (s.peek s.pc.toNat) = false) :
    (∃ i, i.wellFormed = true ∧ i.opcode = s.peek s.pc.toNat ∧ fetch s run = run i) ∨
    (s.params.memSize < s.pc.toNat + lengthOf (s.peek s.pc.toNat) ∧
      fetch s run = .fault (.outOfBoundsAccess s.params.memSize)) := by
  have hf := opForm_good (s.peek s.pc.toNat)
  have hm := memSize_ge s.params
  have hpc := s.pc.isLt
  have r1 := fun k => memRead_in (s := s) (n := s.pc.toNat + 1) (k := k)
  have r2 := fun k => memRead_in (s := s) (n := s.pc.toNat + 2) (k := k)
  have a1 := fun k => memRead_above (s := s) (n := s.pc.toNat + 1) (k := k)
  have a2 := fun k => memRead_above (s := s) (n := s.pc.toNat + 2) (k := k)
  push_cast at r1 r2 a1 a2
  have hop : ∀ {i : Instr} {l : List Byte}, encode i = s.peek s.pc.toNat :: l → i.opcode = s.peek s.pc.toNat := by
    intro i l hi; exact (List.cons.inj hi).1
  unfold fetch
  rw [memRead_word, if_neg (by simp [h])]
  cases hform : opForm (s.peek s.pc.toNat) <;> simp only [hform, OpForm.Good] at hf ⊢
  · exact .inl ⟨_, hf.1, hop hf.2.1, rfl⟩
  · by_cases h1 : s.pc.toNat + 1 < s.params.memSize
    · rw [r1 _ h1]; exact .inl ⟨_, (hf.1 _).1, hop (hf.1 _).2, rfl⟩
    · rw [a1 _ (by omega), hf.2]; exact .inr ⟨by omega, by congr 2; omega⟩
  · by_cases h1 : s.pc.toNat + 1 < s.params.memSize
    · rw [r1 _ h1]
      by_cases h2 : s.pc.toNat + 2 < s.params.memSize
      · rw [r2 _ h2]; exact .inl ⟨_, (hf.1 _).1, hop (hf.1 _).2, rfl⟩
      · rw [a2 _ (by omega), hf.2]; exact .inr ⟨by omega, by congr 2; omega⟩
    · rw [a1 _ (by omega), hf.2]; exact .inr ⟨by omega, by congr 2; omega⟩

/-- A host's load of bytes keeps the invariant. -/
theorem Inv.load (vs : List Byte) : ∀ {s : State} (_ : s.Inv) (a : Nat), (s.load a vs).Inv := by
  induction vs with
  | nil => intro s h a; exact h
  | cons v vs ih =>
    intro s h a
    unfold State.load
    apply ih
    split
    · next hs => exact Inv.poke (x := (a : Int)) h hs v
    · exact h

end Sys2Proof.Machine
end

