-- ==== Sys2Proof/Tests/Slice0.lean ====
section
/-! SUPPORT. The tests. Every expected result is a row of 95_test_vectors.md or 96_test_vectors_programs.md (its section
in the heading), or is worked out by hand from the rule named; the words are written from 30_encoding.md R58 to R65. The
last part shows, for every statement with hypotheses, a state and operands that meet them. -/

namespace Sys2Proof.Tests

open Sys2Proof Sys2Proof.Machine Sys2Proof.Spec

/-! ### Small states -/

/-- Reset with bytes of code at `0x0100`, where the vectors put the instruction, and `pc` there. -/
def world (code : List Byte) : State := State.load { State.reset with pc := 0x0100 } 0x0100 code

/-- The same with `UNLISTED_OPS = i8080`. -/
def world8 (code : List Byte) : State := withOps .i8080 (world code)

/-- The five flags, in the order the vectors print them. -/
def flagsOf (z s p cy ac : Bool) : Flags := { z := z, s := s, p := p, cy := cy, ac := ac }

/-- `Z=1 S=0 P=1` with a carry: what a result of 0 leaves. -/
def zeroFlags (cy : Bool) : Flags := flagsOf true false true cy false

/-- The state with another accumulator. -/
def accu (v : Byte) (s : State) : State := { s with regs := { s.regs with a := v } }

/-- The state with `BC` holding a value. -/
def bc (b c : Byte) (s : State) : State := { s with regs := { s.regs with b := b, c := c } }

/-- The state with `DE` holding a value. -/
def de (d e : Byte) (s : State) : State := { s with regs := { s.regs with d := d, e := e } }

/-- The state with `HL` holding a value. -/
def hl (h l : Byte) (s : State) : State := { s with regs := { s.regs with h := h, l := l } }

/-- The state with other flags. -/
def flagged (f : Flags) (s : State) : State := { s with flags := f }

/-- The state with another stack pointer. -/
def stackAt (w : Word) (s : State) : State := { s with sp := w }

/-- What can be seen of the next state, if there is one. -/
def seen {α : Type} (f : State → α) : Result → Option α
  | .next t    => some (f t)
  | .fault _   => none
  | .refused _ => none

/-- The accumulator and the flags. -/
def aluView (t : State) : Byte × Flags := (t.regs.a, t.flags)

/-! ### WellFormed: the three forms that are no instruction -/

theorem test_movMM_is_no_instruction : (Instr.mov .m .m).wellFormed = false := by decide
theorem test_nopAlias0_is_no_instruction : (Instr.nopAlias 0).wellFormed = false := by decide
theorem test_callAlias0_is_no_instruction (w : Word) : (Instr.callAlias 0 w).wellFormed = false := rfl

/-- The words of the three ill-formed terms decode to the instructions those words are. -/
theorem test_illformed_words_decode_elsewhere :
    decode (encode (.mov .m .m)) = .ok (.hlt, []) ∧ decode (encode (.nopAlias 0)) = .ok (.nop, []) ∧
    decode (encode (.callAlias 0 0x1234)) = .ok (.call 0x1234, []) := ⟨rfl, rfl, rfl⟩

/-! ### Decoding: words written out from R58, R61, R62, R65 -/

theorem test_decode_move :
    decode [0b00000110, 0x3C] = .ok (.mvi (.reg .b) 0x3C, []) ∧ decode [0b00110110, 0xFF] = .ok (.mvi .m 0xFF, []) ∧
    decode [0b00110001, 0xFE, 0xFF] = .ok (.lxi .sp 0xFFFE, []) ∧ decode [0b00010001, 0x34, 0x12] = .ok (.lxi .de 0x1234, []) ∧
    decode [0b01000001] = .ok (.mov (.reg .b) (.reg .c), []) ∧ decode [0b01101100] = .ok (.mov (.reg .l) (.reg .h), []) ∧
    decode [0b01111110] = .ok (.mov (.reg .a) .m, []) ∧ decode [0b01110111] = .ok (.mov .m (.reg .a), []) :=
  ⟨rfl, rfl, rfl, rfl, rfl, rfl, rfl, rfl⟩

theorem test_decode_arithmetic :
    decode [0b10000010] = .ok (.add (.reg .d), []) ∧ decode [0b10001011] = .ok (.adc (.reg .e), []) ∧
    decode [0b10010110] = .ok (.sub .m, []) ∧ decode [0b10011111] = .ok (.sbb (.reg .a), []) ∧
    decode [0b11000110, 1] = .ok (.adi 1, []) ∧ decode [0b11001110, 2] = .ok (.aci 2, []) ∧
    decode [0b11010110, 3] = .ok (.sui 3, []) ∧ decode [0b11011110, 4] = .ok (.sbi 4, []) :=
  ⟨rfl, rfl, rfl, rfl, rfl, rfl, rfl, rfl⟩

theorem test_decode_logic :
    decode [0b10100100] = .ok (.ana (.reg .h), []) ∧ decode [0b10101101] = .ok (.xra (.reg .l), []) ∧
    decode [0b10110000] = .ok (.ora (.reg .b), []) ∧ decode [0b10111110] = .ok (.cmp .m, []) ∧
    decode [0b11100110, 1] = .ok (.ani 1, []) ∧ decode [0b11101110, 2] = .ok (.xri 2, []) ∧
    decode [0b11110110, 3] = .ok (.ori 3, []) ∧ decode [0b11111110, 4] = .ok (.cpi 4, []) :=
  ⟨rfl, rfl, rfl, rfl, rfl, rfl, rfl, rfl⟩

theorem test_decode_incdec_rotate :
    decode [0b00110100] = .ok (.inr .m, []) ∧ decode [0b00001101] = .ok (.dcr (.reg .c), []) ∧
    decode [0b00000111] = .ok (.rlc, []) ∧ decode [0b00001111] = .ok (.rrc, []) ∧
    decode [0b00010111] = .ok (.ral, []) ∧ decode [0b00011111] = .ok (.rar, []) := ⟨rfl, rfl, rfl, rfl, rfl, rfl⟩

theorem test_decode_stack :
    decode [0b11010101] = .ok (.push .de, []) ∧ decode [0b11100001] = .ok (.pop .hl, []) ∧
    decode [0b11110101] = .ok (.pushPsw, []) ∧ decode [0b11110001] = .ok (.popPsw, []) := ⟨rfl, rfl, rfl, rfl⟩

theorem test_decode_jump :
    decode [0b11000011, 0x34, 0x12] = .ok (.jmp 0x1234, []) ∧
    [0b11000010, 0b11001010, 0b11010010, 0b11011010, 0b11100010, 0b11101010, 0b11110010, 0b11111010].map
        (fun op => decode [op, 0x34, 0x12]) =
      [.ok (.jnz 0x1234, []), .ok (.jz 0x1234, []), .ok (.jnc 0x1234, []), .ok (.jc 0x1234, []),
       .ok (.jpo 0x1234, []), .ok (.jpe 0x1234, []), .ok (.jp 0x1234, []), .ok (.jm 0x1234, [])] := ⟨rfl, rfl⟩

theorem test_decode_call :
    decode [0b11001101, 0x34, 0x12] = .ok (.call 0x1234, []) ∧
    [0b11000100, 0b11001100, 0b11010100, 0b11011100, 0b11100100, 0b11101100, 0b11110100, 0b11111100].map
        (fun op => decode [op, 0x34, 0x12]) =
      [.ok (.cnz 0x1234, []), .ok (.cz 0x1234, []), .ok (.cnc 0x1234, []), .ok (.cc 0x1234, []),
       .ok (.cpo 0x1234, []), .ok (.cpe 0x1234, []), .ok (.cp 0x1234, []), .ok (.cm 0x1234, [])] := ⟨rfl, rfl⟩

theorem test_decode_return :
    decode [0b11001001] = .ok (.ret, []) ∧
    [0b11000000, 0b11001000, 0b11010000, 0b11011000, 0b11100000, 0b11101000, 0b11110000, 0b11111000].map
        (fun op => decode [op]) =
      [.ok (.rnz, []), .ok (.rz, []), .ok (.rnc, []), .ok (.rc, []),
       .ok (.rpo, []), .ok (.rpe, []), .ok (.rp, []), .ok (.rm, [])] := ⟨rfl, rfl⟩

theorem test_decode_exchange_io_control :
    decode [0b11101011] = .ok (.xchg, []) ∧ decode [0b11100011] = .ok (.xthl, []) ∧
    decode [0b11111001] = .ok (.sphl, []) ∧ decode [0b11101001] = .ok (.pchl, []) ∧
    decode [0b11011011, 1] = .ok (.inPort 1, []) ∧ decode [0b11010011, 2] = .ok (.outPort 2, []) ∧
    decode [0b11111011] = .ok (.ei, []) ∧ decode [0b11110011] = .ok (.di, []) ∧
    decode [0b01110110] = .ok (.hlt, []) ∧ decode [0b00000000] = .ok (.nop, []) ∧
    decode [0b00111000] = .ok (.nopAlias 7, []) := ⟨rfl, rfl, rfl, rfl, rfl, rfl, rfl, rfl, rfl, rfl, rfl⟩

theorem test_decode_unlisted :
    decode [0b00111010, 0, 0x20] = .ok (.lda 0x2000, []) ∧ decode [0b00110010, 0, 0x20] = .ok (.sta 0x2000, []) ∧
    decode [0b00101010, 0, 0x20] = .ok (.lhld 0x2000, []) ∧ decode [0b00100010, 0, 0x20] = .ok (.shld 0x2000, []) ∧
    decode [0b00011010] = .ok (.ldax .de, []) ∧ decode [0b00000010] = .ok (.stax .bc, []) ∧
    decode [0b00110011] = .ok (.inx .sp, []) ∧ decode [0b00001011] = .ok (.dcx .bc, []) ∧
    decode [0b00101001] = .ok (.dad .hl, []) ∧ decode [0b00101111] = .ok (.cma, []) ∧
    decode [0b00110111] = .ok (.stc, []) ∧ decode [0b00111111] = .ok (.cmc, []) ∧ decode [0b11001111] = .ok (.rst 1, []) :=
  ⟨rfl, rfl, rfl, rfl, rfl, rfl, rfl, rfl, rfl, rfl, rfl, rfl, rfl⟩

theorem test_decode_always_faulting :
    decode [0b00100111] = .ok (.daa, []) ∧ decode [0b11001011, 0, 2] = .ok (.jmpAlias 0x0200, []) ∧
    decode [0b11011001] = .ok (.retAlias, []) ∧ decode [0b11011101, 0, 2] = .ok (.callAlias 1 0x0200, []) ∧
    decode [0b11101101, 0, 2] = .ok (.callAlias 2 0x0200, []) ∧ decode [0b11111101, 0, 2] = .ok (.callAlias 3 0x0200, []) :=
  ⟨rfl, rfl, rfl, rfl, rfl, rfl⟩

theorem test_decode_missing_bytes :
    decode [] = .error .noOpcode ∧ decode [0x3E] = .error (.missingOperand 0x3E) ∧
    decode [0xC3, 0x00] = .error (.missingOperand 0xC3) := ⟨rfl, rfl, rfl⟩

/-- The host's numbering: bit 0 is bit 0 of the opcode byte, and operand bytes left out are zeros. -/
theorem test_table_word :
    decodeTableWord 24 0x1234C3 = some (.jmp 0x1234) ∧ decodeTableWord 8 0xC3 = some (.jmp 0) ∧
    decodeTableWord 16 0x053E = some (.mvi (.reg .a) 5) := ⟨rfl, rfl, rfl⟩

/-! ### 95_test_vectors.md 2.1: load and move -/

theorem test_mviM : seen (fun t => (t.peek 0x2000, t.pc)) (step (hl 0x20 0x00 (world [0x36, 0xFF]))) = some (0xFF, 0x0102) := by
  decide
theorem test_mviA_keeps_flags : seen aluView (step (flagged (flagsOf false false false true false) (world [0x3E, 0x00]))) =
    some (0x00, flagsOf false false false true false) := by decide
theorem test_lxiB : seen (fun t => (t.regs.b, t.regs.c)) (step (world [0x01, 0xEF, 0xBE])) = some (0xBE, 0xEF) := by decide
theorem test_movMH : seen (fun t => t.peek 0x2030) (step (hl 0x20 0x30 (world [0x74]))) = some 0x20 := by decide
theorem test_movBM_reads_own_opcode : seen (fun t => t.regs.b) (step (hl 0x01 0x00 (world [0x46]))) = some 0x46 := by decide

/-! ### 2.2: arithmetic -/

theorem test_addM : seen aluView (step (accu 0x10 (hl 0x20 0x00 ((world [0x86]).poke 0x2000 0xF0)))) =
    some (0x00, zeroFlags true) := by decide
theorem test_addC_keeps_ac :
    seen aluView (step (accu 0x6C (bc 0 0x2E (flagged (flagsOf false false false false true) (world [0x81]))))) =
    some (0x9A, flagsOf false true true false true) := by decide
theorem test_adcB : seen aluView (step (accu 0xFF (bc 0xFF 0 (flagged (flagsOf false false false true false) (world [0x88]))))) =
    some (0xFF, flagsOf false true true true false) := by decide
theorem test_subB : seen aluView (step (accu 0x00 (bc 0x01 0 (world [0x90])))) =
    some (0xFF, flagsOf false true true true false) := by decide
theorem test_sbbB_wide_borrow :
    seen aluView (step (accu 0x00 (bc 0xFF 0 (flagged (flagsOf false false false true false) (world [0x98]))))) =
    some (0x00, zeroFlags true) := by decide
theorem test_adi : seen aluView (step (accu 0xF0 (world [0xC6, 0x20]))) = some (0x10, flagsOf false false false true false) := by
  decide
theorem test_aci : seen aluView (step (accu 0x14 (flagged (flagsOf false false false true false) (world [0xCE, 0x42])))) =
    some (0x57, flagsOf false false false false false) := by decide
theorem test_sui : seen aluView (step (accu 0x0F (world [0xD6, 0x0A]))) = some (0x05, flagsOf false false true false false) := by
  decide
theorem test_sbi : seen aluView (step (accu 0xFF (flagged (flagsOf false false false true false) (world [0xDE, 0xFF])))) =
    some (0xFF, flagsOf false true true true false) := by decide

/-! ### 2.3: logic and compare -/

theorem test_anaB : seen aluView (step (accu 0xF0 (bc 0x0F 0 (flagged (flagsOf false false false true false) (world [0xA0]))))) =
    some (0x00, zeroFlags false) := by decide
theorem test_xraB : seen aluView (step (accu 0xFF (bc 0x0F 0 (world [0xA8])))) =
    some (0xF0, flagsOf false true true false false) := by decide
theorem test_oraB : seen aluView (step (accu 0x80 (bc 0x01 0 (flagged (flagsOf false false false true false) (world [0xB0]))))) =
    some (0x81, flagsOf false true true false false) := by decide
theorem test_ani : seen aluView (step (accu 0x3A (world [0xE6, 0x0F]))) = some (0x0A, flagsOf false false true false false) := by
  decide
theorem test_xri : seen aluView (step (accu 0x55 (world [0xEE, 0xFF]))) = some (0xAA, flagsOf false true true false false) := by
  decide
theorem test_ori : seen aluView (step (accu 0x7F (flagged (flagsOf false false false true false) (world [0xF6, 0x00])))) =
    some (0x7F, flagsOf false false false false false) := by decide
theorem test_cmpB_unsigned : seen aluView (step (accu 0x01 (bc 0x80 0 (world [0xB8])))) =
    some (0x01, flagsOf false true true true false) := by decide
theorem test_cpi : seen aluView (step (accu 0x00 (world [0xFE, 0xFF]))) = some (0x00, flagsOf false false false true false) := by
  decide

/-! ### 2.4: increment, decrement, rotate -/

theorem test_inrL_does_not_carry :
    seen (fun t => (t.regs.h, t.regs.l, t.flags)) (step (hl 0x20 0xFF (world [0x2C]))) =
    some (0x20, 0x00, zeroFlags false) := by decide
theorem test_inrA_keeps_carry : seen aluView (step (accu 0xFF (flagged (flagsOf false false false true false) (world [0x3C])))) =
    some (0x00, zeroFlags true) := by decide
theorem test_dcrM : seen (fun t => (t.peek 0x2000, t.flags)) (step (hl 0x20 0x00 (world [0x35]))) =
    some (0xFF, flagsOf false true true false false) := by decide
theorem test_rlc : seen aluView (step (accu 0x80 (world [0x07]))) = some (0x01, flagsOf false false false true false) := by decide
theorem test_rrc : seen aluView (step (accu 0x01 (world [0x0F]))) = some (0x80, flagsOf false false false true false) := by decide
theorem test_ral : seen aluView (step (accu 0xB5 (flagged (flagsOf false true false true false) (world [0x17])))) =
    some (0x6B, flagsOf false true false true false) := by decide
theorem test_rar : seen aluView (step (accu 0x6A (flagged (flagsOf false false true true false) (world [0x1F])))) =
    some (0xB5, flagsOf false false true false false) := by decide

/-! ### 2.5: stack -/

theorem test_pushB : seen (fun t => (t.sp, t.peek 0x23FE, t.peek 0x23FF)) (step (bc 0x12 0x34 (stackAt 0x2400 (world [0xC5])))) =
    some (0x23FE, 0x34, 0x12) := by decide
theorem test_pushB_faults_at_sp1 :
    step (bc 0x12 0x34 (stackAt 0x0001 (world [0xC5]))) = .fault (.outOfBoundsAccess (-1)) := rfl
theorem test_popH_wraps_sp :
    seen (fun t => (t.regs.h, t.regs.l, t.sp)) (step (stackAt 0xFFFE (((world [0xE1]).poke 0xFFFE 0xCD).poke 0xFFFF 0xAB))) =
    some (0xAB, 0xCD, 0x0000) := by decide
theorem test_popB_faults_at_top : step (stackAt 0xFFFF (world [0xC1])) = .fault (.outOfBoundsAccess 65536) := rfl
theorem test_pushPsw : seen (fun t => (t.peek 0x2FFE, t.peek 0x2FFF))
    (step (accu 0x9C (flagged (flagsOf false true true true false) (stackAt 0x3000 (world [0xF5]))))) =
    some (0x87, 0x9C) := by decide
theorem test_popPsw_ignores_fixed_bits :
    seen aluView (step (stackAt 0x2FFE (((world [0xF1]).poke 0x2FFE 0x2A).poke 0x2FFF 0x33))) =
    some (0x33, flagsOf false false false false false) := by decide

/-! ### 96_test_vectors_programs.md 2.6: control transfer -/

theorem test_jmp : seen (fun t => t.pc) (step (world [0xC3, 0x00, 0x02])) = some 0x0200 := by decide

/-- The condition table of 2.6, its three rows: reset, after a result of 0x00, after a result of 0x80 with a carry. -/
theorem test_conditions :
    [Cond.nz, .z, .nc, .c, .po, .pe, .p, .m].map (condHolds (flagsOf false false false false false)) =
      [true, false, true, false, true, false, true, false] ∧
    [Cond.nz, .z, .nc, .c, .po, .pe, .p, .m].map (condHolds (flagsOf true false true false false)) =
      [false, true, true, false, false, true, true, false] ∧
    [Cond.nz, .z, .nc, .c, .po, .pe, .p, .m].map (condHolds (flagsOf false true false true false)) =
      [true, false, false, true, true, false, false, true] := by decide

/-- The eight `Jcc` in the order of the table, with the flags of its third row. -/
theorem test_conditional_jumps :
    [0xC2, 0xCA, 0xD2, 0xDA, 0xE2, 0xEA, 0xF2, 0xFA].map
        (fun op => seen (fun t => t.pc) (step (flagged (flagsOf false true false true false) (world [op, 0x00, 0x02])))) =
      [some 0x0200, some 0x0103, some 0x0103, some 0x0200, some 0x0200, some 0x0103, some 0x0103, some 0x0200] := by decide

/-- The eight `Ccc` likewise. -/
theorem test_conditional_calls :
    [0xC4, 0xCC, 0xD4, 0xDC, 0xE4, 0xEC, 0xF4, 0xFC].map
        (fun op => seen (fun t => (t.pc, t.sp))
          (step (stackAt 0x2400 (flagged (flagsOf false true false true false) (world [op, 0x00, 0x02]))))) =
      [some (0x0200, 0x23FE), some (0x0103, 0x2400), some (0x0103, 0x2400), some (0x0200, 0x23FE),
       some (0x0200, 0x23FE), some (0x0103, 0x2400), some (0x0103, 0x2400), some (0x0200, 0x23FE)] := by decide

/-- The eight `Rcc` likewise, with 0x0203 on the stack. -/
theorem test_conditional_returns :
    [0xC0, 0xC8, 0xD0, 0xD8, 0xE0, 0xE8, 0xF0, 0xF8].map
        (fun op => seen (fun t => (t.pc, t.sp))
          (step (stackAt 0x23FE (flagged (flagsOf false true false true false)
            (((world [op]).poke 0x23FE 0x03).poke 0x23FF 0x02))))) =
      [some (0x0203, 0x2400), some (0x0101, 0x23FE), some (0x0101, 0x23FE), some (0x0203, 0x2400),
       some (0x0203, 0x2400), some (0x0101, 0x23FE), some (0x0101, 0x23FE), some (0x0203, 0x2400)] := by decide

/-- The source's own scenario (95_test_vectors.md 1.3). -/
theorem test_call : seen (fun t => (t.pc, t.sp, t.peek 0xFFFD, t.peek 0xFFFC)) (step (stackAt 0xFFFE (world [0xCD, 0x00, 0x02]))) =
    some (0x0200, 0xFFFC, 0x01, 0x03) := by decide
theorem test_ret : seen (fun t => (t.pc, t.sp)) (step (stackAt 0xFFFE ((world [0xC9]).poke 0xFFFF 0x80))) =
    some (0x8000, 0x0000) := by decide

/-- A not-taken `JZ` at 0xFFFE faults on its third byte, and `CALL` there faults on it before the push. -/
theorem test_operand_fetch_first :
    step { (world []).load 0xFFFE [0xCA, 0x00] with pc := 0xFFFE } = .fault (.outOfBoundsAccess 65536) ∧
    step { (world []).load 0xFFFE [0xCD, 0x00] with pc := 0xFFFE } = .fault (.outOfBoundsAccess 65536) := ⟨rfl, rfl⟩

/-! ### 2.7: exchange -/

theorem test_xchg : seen (fun t => (t.regs.d, t.regs.e, t.regs.h, t.regs.l)) (step (de 0x12 0x34 (hl 0xAB 0xCD (world [0xEB])))) =
    some (0xAB, 0xCD, 0x12, 0x34) := by decide
theorem test_xthl : seen (fun t => (t.regs.h, t.regs.l, t.peek 0x10AD, t.peek 0x10AE))
    (step (hl 0x0B 0x3C (stackAt 0x10AD (((world [0xE3]).poke 0x10AD 0xF0).poke 0x10AE 0x0D)))) =
    some (0x0D, 0xF0, 0x3C, 0x0B) := by decide
theorem test_xthl_faults_at_top : step (hl 0x12 0x34 (stackAt 0xFFFF (world [0xE3]))) = .fault (.outOfBoundsAccess 65536) := rfl
theorem test_sphl : seen (fun t => (t.sp, t.pc)) (step (hl 0x50 0x6C (world [0xF9]))) = some (0x506C, 0x0101) := by decide
theorem test_pchl : seen (fun t => t.pc) (step (hl 0x41 0x3E (world [0xE9]))) = some 0x413E := by decide

/-! ### 2.8: I/O, interrupt control, halt, no-operation -/

theorem test_in : seen (fun t => (t.regs.a, t.flags, t.ioHistory, t.ioAnswers))
    (step { accu 0x55 (world [0xDB, 0xFF]) with ioAnswers := [0x00, 0x11] }) =
    some (0x00, Flags.reset, [.input 0xFF 0x00], [0x11]) := by decide
theorem test_out : seen (fun t => (t.regs.a, t.ioHistory, t.pc)) (step (accu 0x41 (world [0xD3, 0x10]))) =
    some (0x41, [.output 0x10 0x41], 0x0102) := by decide
theorem test_ei : seen (fun t => (t.inte, t.pc)) (step (world [0xFB])) = some (true, 0x0101) := by decide
theorem test_di : seen (fun t => (t.inte, t.pc)) (step { world [0xF3] with inte := true }) = some (false, 0x0101) := by decide
theorem test_hlt_at_top : seen (fun t => (t.result, t.pc)) (step { (world []).poke 0xFFFF 0x76 with pc := 0xFFFF }) =
    some (.halted, 0x0000) := by decide
theorem test_nop : step (world [0x00]) = .next { world [0x00] with pc := 0x0101 } := rfl
theorem test_nopAlias : step (world [0x38]) = .next { world [0x38] with pc := 0x0101 } := rfl

/-! ### 2.9: the opcodes the source does not enumerate -/

theorem test_unlisted_fault_by_default :
    step (world [0x3A, 0x00, 0x20]) = .fault (.unimplementedOpcode 0x3A 0x0100) ∧
    step (hl 0x20 0xFF (world [0x23])) = .fault (.unimplementedOpcode 0x23 0x0100) ∧
    step (stackAt 0x2400 (world [0xFF])) = .fault (.unimplementedOpcode 0xFF 0x0100) ∧
    step { (world []).poke 0xFFFF 0x3A with pc := 0xFFFF } = .fault (.unimplementedOpcode 0x3A 0xFFFF) := ⟨rfl, rfl, rfl, rfl⟩
theorem test_lda : seen (fun t => (t.regs.a, t.pc)) (step ((world8 [0x3A, 0x00, 0x20]).poke 0x2000 0x99)) =
    some (0x99, 0x0103) := by decide
theorem test_sta : seen (fun t => t.peek 0x2000) (step (accu 0x4E (world8 [0x32, 0x00, 0x20]))) = some 0x4E := by decide
theorem test_lhld : seen (fun t => (t.regs.h, t.regs.l))
    (step (((world8 [0x2A, 0x00, 0x20]).poke 0x2000 0xCD).poke 0x2001 0xAB)) = some (0xAB, 0xCD) := by decide
theorem test_shld : seen (fun t => (t.peek 0x2000, t.peek 0x2001)) (step (hl 0xAE 0x29 (world8 [0x22, 0x00, 0x20]))) =
    some (0x29, 0xAE) := by decide
theorem test_lhld_shld_fault_at_top :
    step (world8 [0x2A, 0xFF, 0xFF]) = .fault (.outOfBoundsAccess 65536) ∧
    step (hl 0xAE 0x29 (world8 [0x22, 0xFF, 0xFF])) = .fault (.outOfBoundsAccess 65536) := ⟨rfl, rfl⟩
theorem test_ldaxD : seen (fun t => t.regs.a) (step (de 0x20 0x01 ((world8 [0x1A]).poke 0x2001 0x62))) = some 0x62 := by decide
theorem test_staxB : seen (fun t => t.peek 0x2000) (step (accu 0x7A (bc 0x20 0x00 (world8 [0x02])))) = some 0x7A := by decide
theorem test_inxH : seen (fun t => (t.regs.h, t.regs.l, t.flags)) (step (hl 0x20 0xFF (world8 [0x23]))) =
    some (0x21, 0x00, Flags.reset) := by decide
theorem test_dcxSp : seen (fun t => t.sp) (step (stackAt 0x0000 (world8 [0x3B]))) = some 0xFFFF := by decide
theorem test_dadB : seen (fun t => (t.regs.h, t.regs.l, t.flags)) (step (bc 0x33 0x9F (hl 0xA1 0x7B (world8 [0x09])))) =
    some (0xD5, 0x1A, Flags.reset) := by decide
theorem test_dadH_carries :
    seen (fun t => (t.regs.h, t.flags)) (step (hl 0x80 0x00 (flagged (flagsOf true false false false false) (world8 [0x29])))) =
    some (0x00, flagsOf true false false true false) := by decide
theorem test_daa_always_faults :
    step (accu 0x9B (world [0x27])) = .fault (.unimplementedOpcode 0x27 0x0100) ∧
    step (accu 0x9B (world8 [0x27])) = .fault (.unimplementedOpcode 0x27 0x0100) := ⟨rfl, rfl⟩
theorem test_cma : seen (fun t => t.regs.a) (step (accu 0x51 (world8 [0x2F]))) = some 0xAE := by decide
theorem test_stc : seen (fun t => t.flags.cy) (step (world8 [0x37])) = some true := by decide
theorem test_cmc : seen (fun t => t.flags.cy) (step (flagged (flagsOf false false false true false) (world8 [0x3F]))) =
    some false := by decide
theorem test_rst7 : seen (fun t => (t.sp, t.pc, t.peek 0x23FE, t.peek 0x23FF)) (step (stackAt 0x2400 (world8 [0xFF]))) =
    some (0x23FE, 0x0038, 0x01, 0x01) := by decide
theorem test_rst1_faults_at_sp1 : step (stackAt 0x0001 (world8 [0xCF])) = .fault (.outOfBoundsAccess (-1)) := rfl
theorem test_undefined_always_fault :
    [0xCB, 0xD9, 0xDD, 0xED, 0xFD].map (fun op : Byte => seen (fun t => t.pc) (step (stackAt 0x2400 (world8 [op, 0x00, 0x02])))) =
      [none, none, none, none, none] := by decide

/-! ### The host's placing of an instruction -/

theorem test_withFetchWord :
    step (State.reset.withFetchWord 24 0x1234C3) = .next { State.reset.withFetchWord 24 0x1234C3 with pc := 0x1234 } := rfl

/-! ### Witnesses: for every statement with hypotheses, a state and operands that meet them, at the ends of the ranges -/

/-- A state whose parameters are `MEM_SIZE = 65537` and `UNLISTED_OPS = i8080`: the smallest store that is larger. -/
def larger (code : List Byte) : State := { world code with params := { memExtra := 1, unlistedOps := .i8080 } }

theorem witness_DecodeOfEncode :
    (Instr.mov (.reg .a) .m).wellFormed = true ∧ (Instr.nopAlias 7).wellFormed = true ∧
    (Instr.callAlias 3 0xFFFF).wellFormed = true := by decide

theorem witness_EncodeOfDecode : decode [0xC3, 0xFF, 0x00, 0x76] = .ok (.jmp 0x00FF, [0x76]) := rfl

/-- Just enough bytes, and one too few. -/
theorem witness_DecodeTotalConsumesLength :
    lengthOf 0xC3 ≤ [0x00, 0x02].length + 1 ∧ [(0x00 : Byte)].length + 1 < lengthOf 0xC3 := by decide

theorem witness_StepRunsDecodedInstruction :
    decode (bytesAtPc (world [0xCD, 0x00, 0x02])) = .ok (.call 0x0200, []) ∧
    decode (bytesAtPc { (world []).poke 0xFFFF 0x76 with pc := 0xFFFF }) = .ok (.hlt, []) := ⟨rfl, rfl⟩

theorem witness_StepUnimplementedExactly :
    step (world8 [0x27]) = .fault (.unimplementedOpcode 0x27 0x0100) ∧
    step (world [0xFF]) = .fault (.unimplementedOpcode 0xFF 0x0100) ∧
    0x27 ∈ faultingOpcodes .i8080 ∧ 0xFF ∈ faultingOpcodes .fault ∧ 0xFF ∉ faultingOpcodes .i8080 :=
  ⟨rfl, rfl, by decide, by decide, by decide⟩

/-- A two-byte instruction at 0xFFFF and a three-byte one at 0xFFFE. -/
theorem witness_OperandFetchOutOfBounds :
    (0x3E ∉ faultingOpcodes .fault ∧ (world []).params.memSize < 0xFFFF + lengthOf 0x3E ∧
      ((world []).poke 0xFFFF 0x3E).peek 0xFFFF = 0x3E) ∧
    (0xC3 ∉ faultingOpcodes .fault ∧ (world []).params.memSize < 0xFFFE + lengthOf 0xC3 ∧
      ((world []).poke 0xFFFE 0xC3).peek 0xFFFE = 0xC3) := by decide

/-- Each of the three clauses at its boundary, with the stop it gives. -/
theorem witness_DataOutOfBoundsExactly :
    exec (.push .bc) (stackAt 1 (world [])) = .fault (.outOfBoundsAccess (-1)) ∧
    exec .xthl (stackAt 0xFFFF (world [])) = .fault (.outOfBoundsAccess 65536) ∧
    exec (.pop .bc) (stackAt 0xFFFF (world [])) = .fault (.outOfBoundsAccess 65536) ∧
    exec (.shld 0xFFFF) (world8 []) = .fault (.outOfBoundsAccess 65536) ∧
    (larger []).params.memSize > 0xFFFF + 1 := ⟨rfl, rfl, rfl, rfl, by decide⟩

theorem witness_DefaultOutOfBoundsAddresses :
    (stackAt 0 (world [0xC5])).params.memExtra = 0 ∧
    step (stackAt 0 (world [0xC5])) = .fault (.outOfBoundsAccess (-1)) ∧
    step (stackAt 0xFFFF (world [0xC1])) = .fault (.outOfBoundsAccess 65536) := ⟨rfl, rfl, rfl⟩

/-- The operand fetch clause of every `…Result` of an instruction of 2 or 3 bytes: the opcode value at 0xFFFF. -/
theorem witness_OperandFetchFaults :
    let s : State := { (world []).poke 0xFFFF 0x3E with pc := 0xFFFF }
    s.peek s.pc.toNat = 0x3E ∧ s.params.memSize < s.pc.toNat + 2 ∧
    step s = .fault (.outOfBoundsAccess s.params.memSize) := ⟨rfl, by decide, rfl⟩

/-- The same clause of the four unlisted instructions of 3 bytes. -/
theorem witness_UnlistedFetchFaults :
    let s : State := { (world8 []).poke 0xFFFE 0x3A with pc := 0xFFFE }
    s.params.unlistedOps = .i8080 ∧ s.peek s.pc.toNat = 0x3A ∧ s.params.memSize < s.pc.toNat + 3 ∧
    step s = .fault (.outOfBoundsAccess s.params.memSize) := ⟨rfl, rfl, by decide, rfl⟩

theorem witness_MovResult : ¬(Operand.m = .m ∧ Operand.reg .b = .m) ∧ ¬(Operand.reg .a = .m ∧ Operand.m = .m) := by decide

/-- `PUSH`, `PUSH PSW`: the lowest stack pointer that can push, and the highest that cannot. -/
theorem witness_PushResult_PushPswResult :
    2 ≤ (stackAt 2 (world [])).sp.toNat ∧ (stackAt 1 (world [])).sp.toNat < 2 := by decide

/-- `POP`, `POP PSW`, `RET`, `XTHL`: the highest stack pointer that can pop, the one that cannot, and that one in a
larger store. -/
theorem witness_PopResult_PopPswResult_ReturnResult_XthlResult :
    (stackAt 0xFFFE (world [])).sp.toNat + 1 < (world []).params.memSize ∧
    (world []).params.memSize ≤ (stackAt 0xFFFF (world [])).sp.toNat + 1 ∧
    (stackAt 0xFFFF (larger [])).sp.toNat + 1 < (larger []).params.memSize := by decide

/-- Each condition both taken and not, with a stack pointer that can push and one that cannot. -/
theorem witness_JumpResult_CallResult_ReturnResult (k : Cond) :
    (∃ f, taken f k = true) ∧ (∃ f, taken f k = false) ∧
    2 ≤ (stackAt 2 (world [])).sp.toNat ∧ (stackAt 1 (world [])).sp.toNat < 2 := by
  refine ⟨?_, ?_, by decide, by decide⟩
  · cases k
    all_goals first
      | exact ⟨flagsOf false false false false false, rfl⟩
      | exact ⟨flagsOf true true true true true, rfl⟩
  · cases k
    all_goals first
      | exact ⟨flagsOf false false false false false, rfl⟩
      | exact ⟨flagsOf true true true true true, rfl⟩

theorem witness_InDeliversHostsAnswer :
    ({ world [] with ioAnswers := [0x7F] } : State).ioAnswers = 0x7F :: [] := rfl

theorem witness_InDeliversHostsAnswer_none_listed : (world []).ioAnswers = [] := rfl

/-- The two settings that the statements of 48_unlisted.md range over. -/
theorem witness_UnlistedResults :
    (world []).params.unlistedOps = .fault ∧ (world8 []).params.unlistedOps = .i8080 := ⟨rfl, rfl⟩

theorem witness_UnlistedWordTransferResult :
    (0xFFFE : Word).toNat + 1 < (world8 []).params.memSize ∧ (world8 []).params.memSize ≤ (0xFFFF : Word).toNat + 1 ∧
    (0xFFFF : Word).toNat + 1 < (larger []).params.memSize := by decide

theorem witness_UnlistedRstResult :
    (stackAt 2 (world8 [])).params.unlistedOps = .i8080 ∧ 2 ≤ (stackAt 2 (world8 [])).sp.toNat ∧
    (stackAt 1 (world8 [])).sp.toNat < 2 := ⟨rfl, by decide, by decide⟩

theorem witness_ListedIgnoresUnlistedOps : groupOf .hlt ≠ .unlisted ∧ groupOf .daa ≠ .unlisted := by decide

theorem witness_StepKeepsInvariant :
    let s := stackAt 0xFFFE ((world [0xCD, 0x00, 0x02]).poke 0xFFFF 1)
    s.Inv ∧ ∃ t, step s = .next t := ⟨⟨by decide, by decide⟩, _, rfl⟩

/-- The hypothesis of the whole-machine rules and frames (`PcAdvanceRule`, `StackPointerRule`, `FlagTable`,
`RegisterFrame`, `MemoryFrame`, `ControlAndPortFrame`, `OnlyHltHalts`), for an instruction of each kind they tell apart. -/
theorem witness_frames :
    (∃ t, exec (.call 0x0200) (stackAt 0xFFFE (world [])) = .next t) ∧
    (∃ t, exec .rz (stackAt 0x2400 (world [])) = .next t) ∧
    (∃ t, exec .popPsw (world []) = .next t) ∧ (∃ t, exec (.mov .m (.reg .a)) (world []) = .next t) ∧
    (∃ t, exec .ei (world []) = .next t) ∧ (∃ t, exec (.outPort 1) (world []) = .next t) ∧
    (∃ t, exec .hlt (world []) = .next t) ∧ (∃ t, exec (.dad .sp) (world8 []) = .next t) :=
  ⟨⟨_, rfl⟩, ⟨_, rfl⟩, ⟨_, rfl⟩, ⟨_, rfl⟩, ⟨_, rfl⟩, ⟨_, rfl⟩, ⟨_, rfl⟩, ⟨_, rfl⟩⟩

/-- The further hypotheses of the frames: a register not written, an address not stored to, an instruction that is none
of those named. -/
theorem witness_frames_side_conditions :
    Reg.b ∉ regsWritten (.add .m) ∧ 0x2001 ∉ storesTo (hl 0x20 0x00 (world [])) (.mov .m (.reg .a)) ∧
    0xFFFB ∉ storesTo (stackAt 0xFFFE (world [])) (.call 0x0200) ∧
    Instr.hlt ≠ .ei ∧ Instr.hlt ≠ .di ∧ (∀ port, Instr.hlt ≠ .inPort port ∧ Instr.hlt ≠ .outPort port) :=
  ⟨by decide, by decide, by decide, by decide, by decide, fun _ => ⟨nofun, nofun⟩⟩

/-- The three ends of a run: `NOP`, then `HLT`; `NOP`, then `DAA`; a budget of one. -/
theorem witness_RunEndStates :
    (∃ t, run 5 (world [0x00, 0x76]) = .halted t 2) ∧
    (∃ t, run 5 (world [0x00, 0x27]) = .faulted (.unimplementedOpcode 0x27 0x0101) t 1) ∧
    (∃ t, run 1 (world [0x00, 0x76]) = .outOfFuel t 1) := ⟨⟨_, rfl⟩, ⟨_, rfl⟩, ⟨_, rfl⟩⟩

theorem witness_HostActionsKeepInvariant : (world [0x76]).Inv := ⟨by decide, by decide⟩

/-- `PushThenPopRestores`, `PushPswThenPopPswRestores`, `CallThenRetReturns` at the lowest stack pointer they admit. -/
theorem witness_round_trips : 2 ≤ (stackAt 2 (world [])).sp.toNat := by decide

theorem witness_ExchangeTwiceRestores :
    (stackAt 0xFFFE (world [])).sp.toNat + 1 < (stackAt 0xFFFE (world [])).params.memSize := by decide

end Sys2Proof.Tests
end

section
/-! What the spec's readings of the state (`Sys2Proof.Spec`) are in the model's own accessors. -/

namespace Sys2Proof.Proofs

open Sys2Proof.Machine Sys2Proof.Spec

theorem reg_eq_regVal (s : State) (r : Reg) : s.reg r = regVal s r := by cases r <;> rfl

/-- A pair is `high * 256 + low` of its two registers (R13). -/
theorem pair_toNat (s : State) (p : Pair) : (s.pair p).toNat = pairVal s p := by
  cases p with
  | bc | de | hl => exact pair16_toNat _ _
  | sp => rfl

theorem ofNat_pairVal (s : State) (p : Pair) : BitVec.ofNat 16 (pairVal s p) = s.pair p := by
  rw [← pair_toNat, BitVec.ofNat_toNat, BitVec.setWidth_eq]

theorem hi8_eq_byte (w : Word) : hi8 w = byte (w.toNat / 256) := by
  rw [← hi8_toNat, byte, BitVec.ofNat_toNat, BitVec.setWidth_eq]

theorem lo8_eq_byte (w : Word) : lo8 w = byte (w.toNat % 256) := by
  rw [← lo8_toNat, byte, BitVec.ofNat_toNat, BitVec.setWidth_eq]

theorem nextPc_eq_after (s : State) (len : Nat) : nextPc s len = s.after len := by
  simp [nextPc, State.after, BitVec.ofNat_add]

theorem condHolds_eq_taken (f : Flags) (k : Cond) : condHolds f k = taken f k := by
  cases k with
  | nz | nc | po | p => exact (beq_false _).symm
  | z | c | pe | m => exact (beq_true _).symm

/-- The word a pop takes has the byte at `sp` as its low half (R131). -/
theorem topWord_eq_pair16 (s : State) :
    topWord s = pair16 (s.peek (s.sp.toNat + 1)) (s.peek s.sp.toNat) := by
  rw [topWord, ← BitVec.ofNat_add, Nat.add_comm, ← pair16_toNat, BitVec.ofNat_toNat, BitVec.setWidth_eq]

end Sys2Proof.Proofs
end

section
/-! When each shared operation answers a next state, and with which: `src8` and `dst8` always, the stack operations and
the unlisted instructions under one condition each. -/

namespace Sys2Proof.Proofs

open Sys2Proof.Machine Sys2Proof.Spec

variable {s t : State}

theorem src8_eq_operandVal (s : State) (o : Operand) (k : Byte → Result) : src8 s o k = k (operandVal s o) := by
  rw [src8_eq]
  cases o with
  | reg r => exact congrArg k (reg_eq_regVal s r)
  | m => exact congrArg (fun a => k (s.peek a)) (pair_toNat s .hl)

/-- An operand written (R60): the register, or the byte at `rp[HL]`. -/
def writeOperand (s : State) (o : Operand) (v : Byte) : State :=
  match o with
  | .reg r => s.setReg r v
  | .m     => s.poke (pairVal s .hl) v

theorem dst8_eq_writeOperand (s : State) (o : Operand) (v : Byte) (k : State → Result) :
    dst8 s o v k = k (writeOperand s o v) := by
  rw [dst8_eq]
  cases o with
  | reg r => rfl
  | m => exact congrArg (fun a => k (s.poke a v)) (pair_toNat s .hl)

/-- Two bytes pushed (R130). -/
def pushed (s : State) (hi lo : Byte) : State :=
  ((s.poke (s.sp.toNat - 1) hi).poke (s.sp.toNat - 2) lo).setSp (s.sp - 2)

theorem push16_next {hi lo : Byte} {k : State → Result} :
    push16 s hi lo k = .next t ↔ 2 ≤ s.sp.toNat ∧ k (pushed s hi lo) = .next t := by
  rw [push16_eq, ← Nat.not_lt]
  split <;> simp_all [raise, pushed]

theorem pop16_next {k : Byte → Byte → State → Result} :
    pop16 s k = .next t ↔ s.sp.toNat + 1 < s.params.memSize ∧
      k (s.peek (s.sp.toNat + 1)) (s.peek s.sp.toNat) (s.setSp (s.sp + 2)) = .next t := by
  rw [pop16_eq]
  split <;> simp_all [raise]

theorem unlisted_next {i : Instr} {action : Result} :
    unlisted s i action = .next t ↔ s.params.unlistedOps = .i8080 ∧ action = .next t := by
  cases h : s.params.unlistedOps <;> simp [h]

/-- The return address of an instruction of `len` bytes pushed (R151, R213). -/
def pushedReturn (s : State) (len : Nat) : State := pushed s (hi8 (s.after len)) (lo8 (s.after len))

/-- A call of three bytes: the stack is touched only when it is taken (R151 to R159). -/
def callEffect (s : State) (isTaken : Bool) : State := bif isTaken then pushedReturn s 3 else s

/-- A return: the stack is read only when it is taken (R160 to R168). -/
def returnEffect (s : State) (isTaken : Bool) : State := bif isTaken then s.setSp (s.sp + 2) else s

/-- A conditional jump that completes (R143 to R150). -/
theorem jumpIf_next {k : Cond} {w : Word} (h : jumpIf (condHolds s.flags k) w s = .next t) :
    t = s.jumpTo ((bif holds s (some k) then some w else none).getD (s.after 3)) := by
  rw [condHolds_eq_taken, jumpIf] at h
  cases hk : taken s.flags k <;> simp_all [holds]

theorem callTo_next {w : Word} (h : callTo w s = .next t) : t = (pushedReturn s 3).jumpTo w := by
  obtain ⟨-, ht⟩ := push16_next.mp h
  exact (transfer_next.mp ht).symm

/-- A conditional call that completes (R152 to R159). -/
theorem callIf_next {k : Cond} {w : Word} (h : callIf (condHolds s.flags k) w s = .next t) :
    t = (callEffect s (holds s (some k))).jumpTo
      ((bif holds s (some k) then some w else none).getD (s.after 3)) := by
  rw [condHolds_eq_taken, callIf] at h
  cases hk : taken s.flags k with
  | false => simp_all [holds, callEffect]
  | true => simpa [holds, callEffect, hk] using callTo_next (by simpa [hk] using h)

theorem returnNow_next (h : returnNow s = .next t) : t = (s.setSp (s.sp + 2)).jumpTo (topWord s) := by
  obtain ⟨-, ht⟩ := pop16_next.mp h
  rw [topWord_eq_pair16]
  exact (transfer_next.mp ht).symm

/-- A conditional return that completes (R161 to R168). -/
theorem returnIf_next {k : Cond} (h : returnIf (condHolds s.flags k) s = .next t) :
    t = (returnEffect s (holds s (some k))).jumpTo
      ((bif holds s (some k) then some (topWord s) else none).getD (s.after 1)) := by
  rw [condHolds_eq_taken, returnIf] at h
  cases hk : taken s.flags k with
  | false => simp_all [holds, returnEffect]
  | true => simpa [holds, returnEffect, hk] using returnNow_next (by simpa [hk] using h)

end Sys2Proof.Proofs
end

section
/-! The state that a completed instruction leaves, said once for all instructions (`exec_next`). The whole-machine rules
and frames are read off it, field by field. -/

namespace Sys2Proof.Proofs

open Sys2Proof.Machine Sys2Proof.Spec

variable {s t : State} {i : Instr}

/-- What an instruction that completes does to everything but `pc` and the result of the step. Where only `pc`
moves it is the state itself; so it is for the instructions that always fault, which never complete. -/
def dataEffect (s : State) (i : Instr) : State :=
  match i with
  -- 40_load_move.md
  | .mvi o v      => writeOperand s o v
  | .lxi p w      => s.setPair p w
  | .mov dst src  => writeOperand s dst (operandVal s src)
  -- 41_arithmetic.md
  | .add o => aluAdd s (operandVal s o) false
  | .adc o => aluAdd s (operandVal s o) s.flags.cy
  | .sub o => aluSub s (operandVal s o) false
  | .sbb o => aluSub s (operandVal s o) s.flags.cy
  | .adi v => aluAdd s v false
  | .aci v => aluAdd s v s.flags.cy
  | .sui v => aluSub s v false
  | .sbi v => aluSub s v s.flags.cy
  -- 42_logical_compare.md
  | .ana o => aluLogic s (s.regs.a &&& operandVal s o)
  | .xra o => aluLogic s (s.regs.a ^^^ operandVal s o)
  | .ora o => aluLogic s (s.regs.a ||| operandVal s o)
  | .ani v => aluLogic s (s.regs.a &&& v)
  | .xri v => aluLogic s (s.regs.a ^^^ v)
  | .ori v => aluLogic s (s.regs.a ||| v)
  | .cmp o => aluCmp s (operandVal s o)
  | .cpi v => aluCmp s v
  -- 43_incdec_rotate.md
  | .inr o => writeOperand (flagsIncDec s (operandVal s o + 1)) o (operandVal s o + 1)
  | .dcr o => writeOperand (flagsIncDec s (operandVal s o - 1)) o (operandVal s o - 1)
  | .rlc => rotateResult s (s.regs.a <<< 1 ||| bitByte (s.regs.a.getLsbD 7)) (s.regs.a.getLsbD 7)
  | .rrc => rotateResult s (s.regs.a >>> 1 ||| bitByte (s.regs.a.getLsbD 0) <<< 7) (s.regs.a.getLsbD 0)
  | .ral => rotateResult s (s.regs.a <<< 1 ||| bitByte s.flags.cy) (s.regs.a.getLsbD 7)
  | .rar => rotateResult s (s.regs.a >>> 1 ||| bitByte s.flags.cy <<< 7) (s.regs.a.getLsbD 0)
  -- 44_stack.md
  | .push p  => pushed s (s.stackPair p).1 (s.stackPair p).2
  | .pushPsw => pushed s s.regs.a (pswPack s.flags)
  | .pop p   => (s.setSp (s.sp + 2)).setStackPair p (s.peek (s.sp.toNat + 1)) (s.peek s.sp.toNat)
  | .popPsw  =>
    ((s.setSp (s.sp + 2)).setFlags (pswUnpack (s.peek s.sp.toNat))).setReg .a (s.peek (s.sp.toNat + 1))
  -- 45_control_transfer.md
  | .call _ | .cnz _ | .cz _ | .cnc _ | .cc _ | .cpo _ | .cpe _ | .cp _ | .cm _ =>
    callEffect s (pushes s i)
  | .ret | .rnz | .rz | .rnc | .rc | .rpo | .rpe | .rp | .rm => returnEffect s (pops s i)
  -- 46_exchange_sp_pc.md
  | .xchg => (s.setPair .hl (s.pair .de)).setPair .de (s.pair .hl)
  | .xthl =>
    (((s.poke s.sp.toNat s.regs.l).poke (s.sp.toNat + 1) s.regs.h).setReg .l (s.peek s.sp.toNat)).setReg .h
      (s.peek (s.sp.toNat + 1))
  | .sphl => s.setSp (s.pair .hl)
  -- 47_io_int_halt_nop.md
  | .inPort port =>
    { s with ioAnswers := s.ioAnswers.tail
             ioHistory := .input port (s.ioAnswer port) :: s.ioHistory }.setReg .a (s.ioAnswer port)
  | .outPort port => { s with ioHistory := .output port s.regs.a :: s.ioHistory }
  | .ei => s.setInte true
  | .di => s.setInte false
  -- 48_unlisted.md
  | .lda w  => s.setReg .a (s.peek w.toNat)
  | .sta w  => s.poke w.toNat s.regs.a
  | .lhld w => (s.setReg .l (s.peek w.toNat)).setReg .h (s.peek (w.toNat + 1))
  | .shld w => (s.poke w.toNat s.regs.l).poke (w.toNat + 1) s.regs.h
  | .ldax p => s.setReg .a (s.peek (s.indirectAddr p).toNat)
  | .stax p => s.poke (s.indirectAddr p).toNat s.regs.a
  | .inx p  => s.setPair p (s.pair p + 1)
  | .dcx p  => s.setPair p (s.pair p - 1)
  | .dad p  =>
    (s.setFlags { s.flags with cy := decide ((s.pair .hl).toNat + (s.pair p).toNat > 65535) }).setPair .hl
      (BitVec.ofNat 16 ((s.pair .hl).toNat + (s.pair p).toNat))
  | .cma   => s.setReg .a (s.regs.a ^^^ 0xFF)
  | .stc   => s.setFlags { s.flags with cy := true }
  | .cmc   => s.setFlags { s.flags with cy := !s.flags.cy }
  | .rst _ => pushedReturn s 1
  -- only `pc` moves, or the instruction always faults
  | .jmp _ | .jnz _ | .jz _ | .jnc _ | .jc _ | .jpo _ | .jpe _ | .jp _ | .jm _ | .pchl | .hlt | .nop | .nopAlias _ => s
  | .daa | .jmpAlias _ | .retAlias | .callAlias _ _ => s

/-- What the step of an instruction that completes returns (R226, R189). -/
def resultOf : Instr → StepResult
  | .hlt => .halted
  | _    => .continued

/-- The state after an instruction that completes. -/
def completed (s : State) (i : Instr) : State :=
  { dataEffect s i with pc := (transferTo s i).getD (s.after (encode i).length), result := resultOf i }

/-- Registers, `sp`, flags and memory changed at most. -/
def OnlyData (s t : State) : Prop := t = { s with regs := t.regs, sp := t.sp, flags := t.flags, mem := t.mem }

section
variable (h : OnlyData s t)
include h

theorem OnlyData.pc : t.pc = s.pc := by rw [OnlyData] at h; rw [h]
theorem OnlyData.inte : t.inte = s.inte := by rw [OnlyData] at h; rw [h]
theorem OnlyData.params : t.params = s.params := by rw [OnlyData] at h; rw [h]
theorem OnlyData.ioHistory : t.ioHistory = s.ioHistory := by rw [OnlyData] at h; rw [h]
theorem OnlyData.ioAnswers : t.ioAnswers = s.ioAnswers := by rw [OnlyData] at h; rw [h]

end

theorem onlyData_writeOperand (s : State) (o : Operand) (v : Byte) : OnlyData s (writeOperand s o v) := by
  cases o <;> rfl

theorem onlyData_setPair (s : State) (p : Pair) (w : Word) : OnlyData s (s.setPair p w) := by cases p <;> rfl

theorem onlyData_callEffect (s : State) (c : Bool) : OnlyData s (callEffect s c) := by cases c <;> rfl

theorem onlyData_returnEffect (s : State) (c : Bool) : OnlyData s (returnEffect s c) := by cases c <;> rfl

/-- Only `EI`, `DI`, `IN` and `OUT` reach another field (R27, R184). -/
theorem onlyData_dataEffect (s : State) (i : Instr) : OnlyData s (dataEffect s i) ∨
    i = .ei ∨ i = .di ∨ (∃ port, i = .inPort port) ∨ ∃ port, i = .outPort port := by
  cases i with
  | ei => exact .inr (.inl rfl)
  | di => exact .inr (.inr (.inl rfl))
  | inPort port => exact .inr (.inr (.inr (.inl ⟨port, rfl⟩)))
  | outPort port => exact .inr (.inr (.inr (.inr ⟨port, rfl⟩)))
  | mvi o _ | mov o _ => exact .inl (onlyData_writeOperand s o _)
  | inr o | dcr o => left; cases o <;> rfl
  | lxi p _ | inx p | dcx p => exact .inl (onlyData_setPair s p _)
  | pop p => left; cases p <;> rfl
  | call _ | cnz _ | cz _ | cnc _ | cc _ | cpo _ | cpe _ | cp _ | cm _ =>
    exact .inl (onlyData_callEffect s _)
  | ret | rnz | rz | rnc | rc | rpo | rpe | rp | rm => exact .inl (onlyData_returnEffect s _)
  | _ => exact .inl rfl

theorem dataEffect_pc (s : State) (i : Instr) : (dataEffect s i).pc = s.pc := by
  obtain hd | rfl | rfl | ⟨_, rfl⟩ | ⟨_, rfl⟩ := onlyData_dataEffect s i
  · exact hd.pc
  all_goals rfl

/-- The instructions that end by advancing to their successor. -/
theorem advance_completed (hflow : transferTo s i = none) (hres : resultOf i = .continued)
    (h : advance (dataEffect s i) (encode i).length = .next t) : t = completed s i := by
  rw [← advance_next.mp h, completed, hflow, hres, State.after, dataEffect_pc]
  rfl

/-- An instruction that completes leaves `completed s i`. -/
theorem exec_next (h : exec i s = .next t) : t = completed s i := by
  cases i with
  | mvi _ _ | mov _ _ | add _ | adc _ | sub _ | sbb _ | ana _ | xra _ | ora _ | cmp _ | inr _ | dcr _ =>
    simp only [exec, execMvi, execMov, execAdd, execAdc, execSub, execSbb, execAna, execXra, execOra, execCmp, execInr,
      execDcr, src8_eq_operandVal, dst8_eq_writeOperand] at h
    exact advance_completed rfl rfl h
  | lxi _ _ | adi _ | aci _ | sui _ | sbi _ | ani _ | xri _ | ori _ | cpi _ | rlc | rrc | ral | rar | xchg | sphl
  | inPort _ | outPort _ | ei | di | nop | nopAlias _ => exact advance_completed rfl rfl h
  | hlt => cases h; rfl
  | push _ | pushPsw =>
    simp only [exec, execPush, execPushPsw, push16_next] at h
    obtain ⟨-, h⟩ := h
    exact advance_completed rfl rfl h
  | pop _ | popPsw =>
    simp only [exec, execPop, execPopPsw, pop16_next] at h
    obtain ⟨-, h⟩ := h
    exact advance_completed rfl rfl h
  | jmp _ => exact (transfer_next.mp h).symm
  | pchl =>
    rw [← transfer_next.mp h, ← ofNat_pairVal]
    rfl
  | jnz _ | jz _ | jnc _ | jc _ | jpo _ | jpe _ | jp _ | jm _ => exact jumpIf_next h
  | call _ => exact callTo_next h
  | cnz _ | cz _ | cnc _ | cc _ | cpo _ | cpe _ | cp _ | cm _ => exact callIf_next h
  | ret => exact returnNow_next h
  | rnz | rz | rnc | rc | rpo | rpe | rp | rm => exact returnIf_next h
  | xthl =>
    simp only [exec, execXthl, memRead_word, memWrite_word, memRead_next, memWrite_next] at h
    obtain ⟨-, -, h⟩ := h
    exact advance_completed rfl rfl h
  | lda _ | sta _ | ldax _ | stax _ =>
    simp only [exec, execLda, execSta, execLdax, execStax, unlisted_next, memRead_next, memWrite_next] at h
    obtain ⟨-, -, h⟩ := h
    exact advance_completed rfl rfl h
  | lhld _ | shld _ =>
    simp only [exec, execLhld, execShld, unlisted_next, memRead_next, memWrite_next] at h
    obtain ⟨-, -, -, h⟩ := h
    exact advance_completed rfl rfl h
  | inx _ | dcx _ | dad _ | cma | stc | cmc =>
    obtain ⟨-, h⟩ := unlisted_next.mp h
    exact advance_completed rfl rfl h
  | rst _ =>
    simp only [exec, execRst, unlisted_next, push16_next] at h
    obtain ⟨-, -, h⟩ := h
    exact (transfer_next.mp h).symm
  | daa | jmpAlias _ | retAlias | callAlias _ _ => cases h

end Sys2Proof.Proofs
end

section
/-! 10_state.md: what a completed instruction does to each field of the state, and the state at reset. -/

namespace Sys2Proof.Proofs

open Sys2Proof.Machine Sys2Proof.Spec

variable {s : State}

/-! ### The fields of an operand written, a call and a return -/

@[simp] theorem writeOperand_sp (s : State) (o : Operand) (v : Byte) : (writeOperand s o v).sp = s.sp := by
  cases o <;> rfl
@[simp] theorem writeOperand_flags (s : State) (o : Operand) (v : Byte) : (writeOperand s o v).flags = s.flags := by
  cases o <;> rfl
@[simp] theorem callEffect_sp (s : State) (c : Bool) : (callEffect s c).sp = bif c then s.sp - 2 else s.sp := by
  cases c <;> rfl
@[simp] theorem callEffect_flags (s : State) (c : Bool) : (callEffect s c).flags = s.flags := by cases c <;> rfl
@[simp] theorem callEffect_regs (s : State) (c : Bool) : (callEffect s c).regs = s.regs := by cases c <;> rfl
@[simp] theorem returnEffect_sp (s : State) (c : Bool) : (returnEffect s c).sp = bif c then s.sp + 2 else s.sp := by
  cases c <;> rfl
@[simp] theorem returnEffect_flags (s : State) (c : Bool) : (returnEffect s c).flags = s.flags := by cases c <;> rfl
@[simp] theorem returnEffect_regs (s : State) (c : Bool) : (returnEffect s c).regs = s.regs := by cases c <;> rfl

/-! ### The statements -/

/-- Settles O46: a completed instruction puts its successor or its target into `pc` (`exec_next`). -/
theorem pcAdvanceRule : Obligations.PcAdvanceRule := by
  intro i s t h
  rw [exec_next h, nextPc_eq_after]
  rfl

theorem dataEffect_sp (s : State) (i : Instr) : (dataEffect s i).sp = spAfter s i := by
  cases i with
  | mvi _ _ | mov _ _ | inr _ | dcr _ => exact writeOperand_sp _ _ _
  | lxi p _ | inx p | dcx p => cases p <;> rfl
  | pop _ => exact setStackPair_sp _ _ _ _
  | sphl => exact (ofNat_pairVal s .hl).symm
  | call _ | cnz _ | cz _ | cnc _ | cc _ | cpo _ | cpe _ | cp _ | cm _ => exact callEffect_sp s _
  | ret | rnz | rz | rnc | rc | rpo | rpe | rp | rm => exact returnEffect_sp s _
  | _ => rfl

/-- Settles O47: `sp` is the one of the data effect (`dataEffect_sp`). -/
theorem stackPointerRule : Obligations.StackPointerRule := by
  intro i s t h
  rw [exec_next h]
  exact dataEffect_sp s i

theorem flagsKept_dataEffect (s : State) (i : Instr) :
    FlagsKept (flagRow i) s.flags (dataEffect s i).flags := by
  cases i with
  | mvi _ _ | mov _ _ => exact writeOperand_flags _ _ _
  | lxi _ _ | inx _ | dcx _ => exact setPair_flags _ _ _
  | pop _ => exact setStackPair_flags _ _ _ _
  | inr _ | dcr _ => simp [FlagsKept, flagRow, dataEffect, flagsIncDec]
  | popPsw => trivial
  | call _ | cnz _ | cz _ | cnc _ | cc _ | cpo _ | cpe _ | cp _ | cm _ => exact callEffect_flags s _
  | ret | rnz | rz | rnc | rc | rpo | rpe | rp | rm => exact returnEffect_flags s _
  | _ => rfl

/-- Settles O48: the flags are those of the data effect (`flagsKept_dataEffect`). -/
theorem flagTable : Obligations.FlagTable := by
  intro i s t h
  rw [exec_next h]
  exact flagsKept_dataEffect s i

theorem reg_congr {t : State} (h : t.regs = s.regs) (r : Reg) : t.reg r = s.reg r := by
  cases r <;> simp only [State.reg, h]

/-! ### Registers: `l` holds all registers an update writes, so a register outside `l` is kept -/

section
variable {r : Reg} {l : List Reg}

theorem setReg_reg_of_notMem (hr : r ∉ l) {r' : Reg} (hl : r' ∈ l) (v : Byte) : (s.setReg r' v).reg r = s.reg r := by
  rw [setReg_reg, if_neg]
  rintro rfl
  exact hr hl

theorem setReg_setReg_reg_of_notMem (hr : r ∉ l) {r₁ r₂ : Reg} (h₁ : r₁ ∈ l) (h₂ : r₂ ∈ l) (v w : Byte) :
    ((s.setReg r₁ v).setReg r₂ w).reg r = s.reg r :=
  (setReg_reg_of_notMem hr h₂ w).trans (setReg_reg_of_notMem hr h₁ v)

theorem setStackPair_reg_of_notMem (hr : r ∉ l) {p : StackPair} (hl : pairRegs (ofStack p) ⊆ l) (hi lo : Byte) :
    (s.setStackPair p hi lo).reg r = s.reg r := by
  cases p <;> exact setReg_setReg_reg_of_notMem hr (hl (by decide)) (hl (by decide)) hi lo

theorem setPair_reg_of_notMem (hr : r ∉ l) {p : Pair} (hl : pairRegs p ⊆ l) (w : Word) :
    (s.setPair p w).reg r = s.reg r := by
  cases p with
  | bc => exact setStackPair_reg_of_notMem (p := .bc) hr hl (hi8 w) (lo8 w)
  | de => exact setStackPair_reg_of_notMem (p := .de) hr hl (hi8 w) (lo8 w)
  | hl => exact setStackPair_reg_of_notMem (p := .hl) hr hl (hi8 w) (lo8 w)
  | sp => exact setSp_reg s w r

theorem writeOperand_reg_of_notMem {o : Operand} (hr : r ∉ operandRegs o) (v : Byte) :
    (writeOperand s o v).reg r = s.reg r := by
  cases o with
  | reg r' => exact setReg_reg_of_notMem hr (List.mem_singleton_self r') v
  | m => exact poke_reg _ _ _ _

/-- The ALU operations and the rotates are this update: flags, then `A`. -/
theorem setFlags_setReg_a_reg (hr : r ∉ [Reg.a]) (f : Flags) (v : Byte) :
    ((s.setFlags f).setReg .a v).reg r = s.reg r :=
  (setReg_reg_of_notMem hr (by decide) v).trans (setFlags_reg s f r)

theorem dataEffect_reg_of_notMem {i : Instr} (hr : r ∉ regsWritten i) : (dataEffect s i).reg r = s.reg r := by
  cases i with
  | mvi _ _ | mov _ _ => exact writeOperand_reg_of_notMem hr _
  | inr _ | dcr _ => exact (writeOperand_reg_of_notMem hr _).trans (setFlags_reg _ _ _)
  | lxi _ _ | inx _ | dcx _ => exact setPair_reg_of_notMem hr (List.Subset.refl _) _
  | dad _ => exact (setPair_reg_of_notMem hr (List.Subset.refl _) _).trans (setFlags_reg _ _ _)
  | pop _ => exact (setStackPair_reg_of_notMem hr (List.Subset.refl _) _ _).trans (setSp_reg _ _ _)
  | xchg => exact (setPair_reg_of_notMem hr (by decide) _).trans (setPair_reg_of_notMem hr (by decide) _)
  | lhld _ => exact setReg_setReg_reg_of_notMem (l := [.h, .l]) hr (by decide) (by decide) _ _
  | xthl =>
    exact (setReg_setReg_reg_of_notMem hr (by decide) (by decide) _ _).trans ((poke_reg _ _ _ _).trans (poke_reg _ _ _ _))
  | add _ | adc _ | sub _ | sbb _ | adi _ | aci _ | sui _ | sbi _ | ana _ | xra _ | ora _ | ani _ | xri _ | ori _
  | rlc | rrc | ral | rar => exact setFlags_setReg_a_reg hr _ _
  | popPsw => exact (setFlags_setReg_a_reg hr _ _).trans (setSp_reg _ _ _)
  | lda _ | ldax _ | cma => exact setReg_reg_of_notMem (l := [.a]) hr (by decide) _
  | inPort _ => exact (setReg_reg_of_notMem (l := [.a]) hr (by decide) _).trans (reg_congr rfl r)
  | call _ | cnz _ | cz _ | cnc _ | cc _ | cpo _ | cpe _ | cp _ | cm _ => exact reg_congr (callEffect_regs s _) r
  | ret | rnz | rz | rnc | rc | rpo | rpe | rp | rm => exact reg_congr (returnEffect_regs s _) r
  | _ => exact reg_congr rfl r

end

/-- Settles O49: the registers are those of the data effect, which writes none outside `regsWritten i`. -/
theorem registerFrame : Obligations.RegisterFrame := by
  intro i s t r h hr
  rw [exec_next h, ← reg_eq_regVal, ← reg_eq_regVal]
  exact (reg_congr rfl r).trans (dataEffect_reg_of_notMem hr)

/-- Settles O51: the data effect of every instruction but `EI`, `DI`, `IN` and `OUT` keeps these fields
(`onlyData_dataEffect`), and each of the four keeps the others. -/
theorem controlAndPortFrame : Obligations.ControlAndPortFrame := by
  intro i s t h
  rw [exec_next h]
  obtain hd | rfl | rfl | ⟨port, rfl⟩ | ⟨port, rfl⟩ := onlyData_dataEffect s i
  · exact ⟨fun _ _ => hd.inte, hd.params, fun _ => ⟨hd.ioHistory, hd.ioAnswers⟩, fun _ _ => hd.ioAnswers⟩
  · exact ⟨fun hei => absurd rfl hei, rfl, fun _ => ⟨rfl, rfl⟩, fun _ _ => rfl⟩
  · exact ⟨fun _ hdi => absurd rfl hdi, rfl, fun _ => ⟨rfl, rfl⟩, fun _ _ => rfl⟩
  · exact ⟨fun _ _ => rfl, rfl, fun hio => absurd rfl (hio port).1, nofun⟩
  · exact ⟨fun _ _ => rfl, rfl, fun hio => absurd rfl (hio port).2, fun _ _ => rfl⟩

/-- Settles O45, register by register; every other field by computation. -/
theorem resetZeroesCore : Obligations.ResetZeroesCore := by
  refine ⟨fun r => ?_, rfl, rfl, rfl, rfl, fun s => ⟨fun r => ?_, rfl⟩⟩
  all_goals cases r <;> rfl

/-- Settles O60: a pair is its two halves (`pair_toNat`), and the halves of a word make it up (`pair16_hi8_lo8`). -/
theorem registerPairsAreViews : Obligations.RegisterPairsAreViews := by
  intro s
  refine ⟨⟨pair_toNat s .bc, pair_toNat s .de, pair_toNat s .hl⟩, fun w => ?_, fun w => ?_, fun v => ?_⟩
  · rw [← hi8_eq_byte, ← lo8_eq_byte]
    exact ⟨rfl, rfl, rfl⟩
  · exact ⟨pair16_hi8_lo8 w, pair16_hi8_lo8 w, pair16_hi8_lo8 w⟩
  · refine ⟨pair_toNat _ .bc, pair_toNat _ .bc, pair_toNat _ .de, pair_toNat _ .de, pair_toNat _ .hl,
      pair_toNat _ .hl, fun p => ?_⟩
    cases p <;> rfl

end Sys2Proof.Proofs
end

section
/-! 20_memory.md: an instruction writes memory only at the addresses it stores to (`dataEffect_writesOnly`), and those
lie in the store when it completes (`storesTo_lt_memSize`). The frame and the invariant are read off these two facts. -/

namespace Sys2Proof.Proofs

open Sys2Proof.Machine Sys2Proof.Spec

variable {s t : State} {i : Instr} {l : List Nat} {m m' : Memory}

/-! ### Memories that differ by writes at listed addresses -/

/-- `m'` is `m` after some writes, each at an address of `l`. -/
inductive WritesOnly (l : List Nat) (m : Memory) : Memory → Prop where
  | refl : WritesOnly l m m
  | write {m' : Memory} (h : WritesOnly l m m') {a : Nat} (ha : a ∈ l) (v : Byte) :
      WritesOnly l m (Memory.write m' a v)

section
variable (h : WritesOnly l m m')
include h

theorem WritesOnly.read {a : Nat} (ha : a ∉ l) : Memory.read m' a = Memory.read m a := by
  induction h with
  | refl => rfl
  | write _ hb v ih => rw [Memory.read_write_other _ v (ne_of_mem_of_not_mem hb ha).symm, ih]

theorem WritesOnly.wf (hm : Memory.wf m = true) : Memory.wf m' = true := by
  induction h with
  | refl => exact hm
  | write _ _ v ih => exact Memory.wf_write ih _ v

theorem WritesOnly.within {size : Nat} (hl : ∀ a ∈ l, a < size) (hm : Memory.within size m = true) :
    Memory.within size m' = true := by
  induction h with
  | refl => exact hm
  | write _ ha v ih => exact Memory.within_write ih (hl _ ha) v

end

theorem WritesOnly.of_eq (h : m' = m) : WritesOnly l m m' := h ▸ .refl

theorem writesOnly_one (m : Memory) (a : Nat) (v : Byte) : WritesOnly [a] m (Memory.write m a v) :=
  .write .refl (by simp) v

theorem writesOnly_two (m : Memory) (a b : Nat) (v w : Byte) :
    WritesOnly [a, b] m (Memory.write (Memory.write m a v) b w) :=
  .write (.write .refl (by simp) v) (by simp) w

/-! ### What an instruction writes -/

theorem writeOperand_writesOnly (s : State) (o : Operand) (v : Byte) :
    WritesOnly (operandStore s o) s.mem (writeOperand s o v).mem := by
  cases o with
  | reg r => exact .refl
  | m => exact writesOnly_one _ _ v

/-- A call that may or may not be taken. -/
theorem callEffect_writesOnly (s : State) (c : Bool) :
    WritesOnly (bif c then [s.sp.toNat - 1, s.sp.toNat - 2] else []) s.mem (callEffect s c).mem := by
  cases c with
  | false => exact .refl
  | true => exact writesOnly_two _ _ _ _ _

@[simp] theorem returnEffect_mem (s : State) (c : Bool) : (returnEffect s c).mem = s.mem := by cases c <;> rfl

theorem indirectAddr_toNat (s : State) (p : IndirectPair) : (s.indirectAddr p).toNat = pairVal s (ofIndirect p) := by
  cases p with
  | bc => exact pair_toNat s .bc
  | de => exact pair_toNat s .de

/-- The access table of R44, for writes. -/
theorem dataEffect_writesOnly (s : State) (i : Instr) : WritesOnly (storesTo s i) s.mem (dataEffect s i).mem := by
  cases i with
  | mvi o _ | mov o _ => exact writeOperand_writesOnly s o _
  | inr o | dcr o => exact writeOperand_writesOnly (flagsIncDec s _) o _
  | push _ | pushPsw | rst _ | call _ | xthl | shld _ => exact writesOnly_two _ _ _ _ _
  | cnz _ | cz _ | cnc _ | cc _ | cpo _ | cpe _ | cp _ | cm _ => exact callEffect_writesOnly s _
  | sta _ => exact writesOnly_one _ _ _
  | stax p =>
    rw [storesTo, ← indirectAddr_toNat]
    exact writesOnly_one _ _ _
  | lxi _ _ | inx _ | dcx _ => exact .of_eq (setPair_mem s _ _)
  | pop _ => exact .of_eq (setStackPair_mem _ _ _ _)
  | ret | rnz | rz | rnc | rc | rpo | rpe | rp | rm => exact .of_eq (returnEffect_mem s _)
  | _ => exact .refl

/-! ### The addresses stored to lie in the store -/

theorem word_lt_memSize (p : Params) (w : Word) : w.toNat < p.memSize :=
  w.isLt.trans_le (memSize_ge p)

theorem pairVal_lt_memSize (s : State) (p : Pair) : pairVal s p < s.params.memSize :=
  pair_toNat s p ▸ word_lt_memSize _ _

theorem operandStore_lt_memSize {o : Operand} {a : Nat} (ha : a ∈ operandStore s o) : a < s.params.memSize := by
  cases o with
  | reg r => cases ha
  | m => exact List.mem_singleton.mp ha ▸ pairVal_lt_memSize s .hl

/-- Below `sp`, the store has no end to meet: it begins at 0 and `sp` is a word (R130). -/
theorem push_lt_memSize {a : Nat} (ha : a ∈ [s.sp.toNat - 1, s.sp.toNat - 2]) : a < s.params.memSize := by
  have hsp := word_lt_memSize s.params s.sp
  simp only [List.mem_cons, List.not_mem_nil, or_false] at ha
  omega

theorem call_lt_memSize {c : Bool} {a : Nat} (ha : a ∈ bif c then [s.sp.toNat - 1, s.sp.toNat - 2] else []) :
    a < s.params.memSize := by
  cases c with
  | false => cases ha
  | true => exact push_lt_memSize ha

/-- The second byte of `XTHL` and of `SHLD` is the one a bounds check has to guard (R38). -/
theorem successor_lt_memSize {w : Word} (hin : s.inStore ((w.toNat : Int) + 1) = true) {a : Nat}
    (ha : a ∈ [w.toNat, w.toNat + 1]) : a < s.params.memSize := by
  have hw := ((inStore_iff s _).mp hin).2
  simp only [List.mem_cons, List.not_mem_nil, or_false] at ha
  omega

/-- An instruction that completes stores only inside the store `0 .. MEM_SIZE-1` (R38). -/
theorem storesTo_lt_memSize (h : exec i s = .next t) {a : Nat} (ha : a ∈ storesTo s i) : a < s.params.memSize := by
  cases i with
  | mvi _ _ | mov _ _ | inr _ | dcr _ => exact operandStore_lt_memSize ha
  | push _ | pushPsw | rst _ | call _ => exact push_lt_memSize ha
  | cnz _ | cz _ | cnc _ | cc _ | cpo _ | cpe _ | cp _ | cm _ => exact call_lt_memSize ha
  | sta w => exact List.mem_singleton.mp ha ▸ word_lt_memSize _ w
  | stax p => exact List.mem_singleton.mp ha ▸ pairVal_lt_memSize s _
  | xthl =>
    simp only [exec, execXthl, memRead_word, memRead_next] at h
    obtain ⟨hin, -⟩ := h
    exact successor_lt_memSize hin ha
  | shld w =>
    simp only [exec, execShld, unlisted_next, memWrite_word, memWrite_next] at h
    obtain ⟨-, hin, -⟩ := h
    exact successor_lt_memSize hin ha
  | _ => cases ha

/-! ### The statements -/

/-- Settles O50: the writes are at addresses of `storesTo s i` (`dataEffect_writesOnly`). -/
theorem memoryFrame : Obligations.MemoryFrame := by
  intro i s t a h ha
  rw [exec_next h]
  exact (dataEffect_writesOnly s i).read ha

theorem exec_keeps_inv (hs : s.Inv) (h : exec i s = .next t) : t.Inv := by
  obtain ⟨hwf, hin⟩ := hs
  have hp : t.params = s.params := (controlAndPortFrame i s t h).2.1
  have hm : WritesOnly (storesTo s i) s.mem t.mem := exec_next h ▸ dataEffect_writesOnly s i
  refine ⟨hm.wf hwf, ?_⟩
  rw [hp]
  exact hm.within (fun _ => storesTo_lt_memSize h) hin

/-- A step that completes is an instruction that completes (R70, R71). -/
theorem step_next (h : step s = .next t) : ∃ i, exec i s = .next t := by
  rw [step] at h
  cases hop : faultsUnimplemented s.params.unlistedOps (s.peek s.pc.toNat) with
  | true =>
    rw [fetch_unimplemented hop] at h
    cases h
  | false =>
    obtain ⟨i, -, -, hi⟩ | ⟨-, hf⟩ := fetch_runs (run := fun i => exec i s) hop
    · exact ⟨i, hi ▸ h⟩
    · rw [hf] at h
      cases h

/-- Settles O43: the instruction that the step fetched keeps the invariant (`exec_keeps_inv`). -/
theorem stepKeepsInvariant : Obligations.StepKeepsInvariant := by
  intro s t hs h
  obtain ⟨i, hi⟩ := step_next h
  exact exec_keeps_inv hs hi

end Sys2Proof.Proofs
end

section
/-! 30_encoding.md R55, R56, R65, R66, R69: what `decode` answers for each form that the opcode map selects, and the
decoder, the encoder and the length table against each other. -/

namespace Sys2Proof.Proofs

open Sys2Proof.Spec

variable {op : Byte} {i : Instr}

/-! ### The decoder, by the form of the opcode byte -/

theorem decode_f1 (h : opForm op = .f1 i) (rest : List Byte) : decode (op :: rest) = .ok (i, rest) := by
  simp [decode, h]

theorem decode_f2 {mk : Byte → Instr} (h : opForm op = .f2 mk) (b : Byte) (rest : List Byte) :
    decode (op :: b :: rest) = .ok (mk b, rest) := by
  simp [decode, h]

theorem decode_f3 {mk : Word → Instr} (h : opForm op = .f3 mk) (lo hi : Byte) (rest : List Byte) :
    decode (op :: lo :: hi :: rest) = .ok (mk (pair16 hi lo), rest) := by
  simp [decode, h]

/-- What the decoder can do: the operand bytes are missing, or it splits off the bytes of a well-formed instruction, as
many as the length table says. -/
theorem decode_cons (op : Byte) (bs : List Byte) :
    (bs.length + 1 < lengthOf op ∧ decode (op :: bs) = .error (.missingOperand op)) ∨
    ∃ i rest, decode (op :: bs) = .ok (i, rest) ∧ i.wellFormed = true ∧ encode i ++ rest = op :: bs ∧
      (encode i).length = lengthOf op := by
  have hgood := opForm_good op
  cases hform : opForm op with
  | f1 i =>
    rw [hform] at hgood
    obtain ⟨hwf, henc, hlen⟩ := hgood
    exact .inr ⟨i, bs, decode_f1 hform bs, hwf, by simp [henc], by simp [henc, hlen]⟩
  | f2 mk =>
    rw [hform] at hgood
    obtain ⟨hmk, hlen⟩ := hgood
    match bs with
    | [] => exact .inl ⟨by simp [hlen], by simp [decode, hform]⟩
    | b :: rest =>
      obtain ⟨hwf, henc⟩ := hmk b
      exact .inr ⟨mk b, rest, decode_f2 hform b rest, hwf, by simp [henc], by simp [henc, hlen]⟩
  | f3 mk =>
    rw [hform] at hgood
    obtain ⟨hmk, hlen⟩ := hgood
    match bs with
    | [] | [_] => exact .inl ⟨by simp [hlen], by simp [decode, hform]⟩
    | lo :: hi :: rest =>
      obtain ⟨hwf, henc⟩ := hmk (pair16 hi lo)
      exact .inr ⟨mk (pair16 hi lo), rest, decode_f3 hform lo hi rest, hwf, by simp [henc], by simp [henc, hlen]⟩

/-! ### The opcode byte of an instruction selects its form -/

/-- The form is one of the instruction's, with the operand bytes that make it that instruction. -/
inductive Yields : OpForm → Instr → Prop where
  | f1 {j : Instr} : Yields (.f1 j) j
  | f2 {mk : Byte → Instr} {j : Instr} (b : Byte) (h : mk b = j) : Yields (.f2 mk) j
  | f3 {mk : Word → Instr} {j : Instr} (w : Word) (h : mk w = j) : Yields (.f3 mk) j

/-- The opcode map inverts the patterns of the encoder (R65), on every operand code and every operand byte.
Where operand bytes are free, the opcode byte is written out first, so that the map runs on a literal. -/
theorem opForm_yields (h : i.wellFormed = true) : Yields (opForm i.opcode) i := by
  cases i with
  | mvi o v =>
    rw [Instr.opcode]
    rcases o with (_ | _ | _ | _ | _ | _ | _) | _ <;> exact .f2 v rfl
  | add o | adc o | sub o | sbb o | ana o | xra o | ora o | cmp o | inr o | dcr o =>
    rcases o with (_ | _ | _ | _ | _ | _ | _) | _ <;> exact .f1
  | mov dst src =>
    cases dst with
    | reg r => cases r <;> rcases src with (_ | _ | _ | _ | _ | _ | _) | _ <;> exact .f1
    | m =>
      cases src with
      | reg r => cases r <;> exact .f1
      | m => cases h
  | lxi p w =>
    rw [Instr.opcode]
    cases p <;> exact .f3 w rfl
  | inx p | dcx p | dad p | push p | pop p | ldax p | stax p => cases p <;> exact .f1
  | nopAlias x =>
    match x with
    | 0#3 => cases h
    | 1#3 | 2#3 | 3#3 | 4#3 | 5#3 | 6#3 | 7#3 => exact .f1
  | rst n =>
    match n with
    | 0#3 | 1#3 | 2#3 | 3#3 | 4#3 | 5#3 | 6#3 | 7#3 => exact .f1
  | callAlias x w =>
    rw [Instr.opcode]
    match x with
    | 0#2 => cases h
    | 1#2 | 2#2 | 3#2 => exact .f3 w rfl
  | adi v | aci v | sui v | sbi v | ani v | xri v | ori v | cpi v | inPort v | outPort v =>
    rw [Instr.opcode]
    exact .f2 v rfl
  | jmp w | jnz w | jz w | jnc w | jc w | jpo w | jpe w | jp w | jm w | call w | cnz w | cz w | cnc w | cc w | cpo w
  | cpe w | cp w | cm w | lda w | sta w | lhld w | shld w | jmpAlias w =>
    rw [Instr.opcode]
    exact .f3 w rfl
  | _ => exact .f1

/-! ### The length table -/

theorem lengthOf_pos_le (op : Byte) : 1 ≤ lengthOf op ∧ lengthOf op ≤ 3 := by
  have hgood := opForm_good op
  cases hform : opForm op with
  | f1 i =>
    rw [hform] at hgood
    obtain ⟨-, -, hlen⟩ := hgood
    omega
  | f2 mk | f3 mk =>
    rw [hform] at hgood
    obtain ⟨-, hlen⟩ := hgood
    omega

/-- The lengths of the 256 opcode values, in order, are the rows of R66's table. -/
theorem map_lengthOf_range :
    (List.range 256).map (fun n => lengthOf (byte n)) = lengthRowsLow ++ lengthRowsHigh := by
  have hlen : (lengthRowsLow ++ lengthRowsHigh).length = 256 := by
    simp only [lengthRowsLow, lengthRowsHigh, List.length_append, List.length_replicate]
    rfl
  refine List.ext_getElem (by simp [hlen]) fun n hn _ => ?_
  have hn : n < 256 := by simpa using hn
  simp [lengthOf, byte, Nat.mod_eq_of_lt hn, hlen, hn]

/-- How often a length occurs is counted in the table's rows. -/
theorem countP_lengthOf (k : Nat) :
    ((List.range 256).countP fun n => lengthOf (byte n) == k) = (lengthRowsLow ++ lengthRowsHigh).countP (· == k) := by
  rw [← map_lengthOf_range, List.countP_map]
  rfl

/-! ### The statements -/

/-- Settles O1: the opcode byte selects the form of the instruction (`opForm_yields`), and that form reads the operand
bytes the encoder wrote (`opForm_good`). -/
theorem decodeOfEncode : Obligations.DecodeOfEncode := by
  intro i rest hi
  have hgood := opForm_good i.opcode
  have hyields := opForm_yields hi
  generalize hform : opForm i.opcode = form at hgood hyields
  cases hyields with
  | f1 =>
    obtain ⟨-, henc, -⟩ := hgood
    simpa [henc] using decode_f1 hform rest
  | f2 b hb =>
    subst hb
    obtain ⟨hmk, -⟩ := hgood
    simpa [(hmk b).2] using decode_f2 hform b rest
  | f3 w hw =>
    subst hw
    obtain ⟨hmk, -⟩ := hgood
    simpa [(hmk w).2] using decode_f3 hform (lo8 w) (hi8 w) rest

/-- Settles O2: every answer of the decoder is of the second kind of `decode_cons`. -/
theorem encodeOfDecode : Obligations.EncodeOfDecode := by
  intro bs rest i h
  cases bs with
  | nil => cases h
  | cons op bs =>
    obtain ⟨-, herr⟩ | ⟨j, rest', hok, hwf, henc, -⟩ := decode_cons op bs
    · rw [herr] at h
      cases h
    · rw [hok] at h
      cases h
      exact ⟨hwf, henc⟩

/-- Settles O4: the two kinds of answer of `decode_cons` are told apart by the number of bytes. -/
theorem decodeTotalConsumesLength : Obligations.DecodeTotalConsumesLength := by
  intro op bs
  refine ⟨lengthOf_pos_le op, ?_⟩
  obtain ⟨hshort, herr⟩ | ⟨i, rest, hok, -, henc, hlen⟩ := decode_cons op bs
  · exact ⟨fun h => absurd hshort (Nat.not_lt.mpr h), fun _ => herr⟩
  · obtain ⟨-, rfl⟩ : i.opcode = op ∧ i.operandBytes ++ rest = bs := List.cons.inj henc
    rw [encode_length] at hlen
    refine ⟨fun _ => ⟨i, ?_⟩, fun h => ?_⟩
    · rw [← hlen, Nat.add_sub_cancel, List.drop_left, hok]
    · rw [List.length_append] at h
      omega

/-- Settles O3: the closed form on each of the 256 opcode values, the counts in the rows of the table
(`countP_lengthOf`). -/
theorem lengthTableClosedForm : Obligations.LengthTableClosedForm := by
  refine ⟨Byte.forall_of_nat fun n hn => ?_, ?_, ?_, ?_⟩
  · interval_cases n <;> rfl
  all_goals
    simp only [countP_lengthOf, lengthRowsLow, lengthRowsHigh, List.countP_append, List.countP_replicate]
    rfl

/-- Settles O5: the decoder run on each word. -/
theorem sampleWordsDecode : Obligations.SampleWordsDecode := ⟨rfl, rfl, rfl, rfl, rfl, rfl, rfl, rfl⟩

end Sys2Proof.Proofs
end

section
/-! 30_encoding.md R68, R70, R71: which instructions fault as unimplemented, and the fetch as the decoder run on the
bytes at `pc`. -/

namespace Sys2Proof.Proofs

open Sys2Proof.Machine Sys2Proof.Spec

variable {s : State} {i : Instr}

/-! ### Opcode values that fault as unimplemented -/

/-- R68's predicate is membership in the lists of the test vectors. -/
theorem faultsUnimplemented_iff (u : UnlistedOps) (op : Byte) :
    faultsUnimplemented u op = true ↔ op.toNat ∈ faultingOpcodes u := by
  revert op
  apply Byte.forall_of_nat
  intro n hn
  cases u <;> interval_cases n <;> decide

/-- The opcode byte of a listed instruction never faults as unimplemented (R68, R192). -/
theorem faultsUnimplemented_of_listed (h : groupOf i = .listed) (u : UnlistedOps) :
    faultsUnimplemented u i.opcode = false := by
  cases i with
  | mvi o _ | add o | adc o | sub o | sbb o | ana o | xra o | ora o | cmp o | inr o | dcr o =>
    rcases o with (_ | _ | _ | _ | _ | _ | _) | _ <;> rfl
  | mov dst src =>
    rcases dst with (_ | _ | _ | _ | _ | _ | _) | _ <;> rcases src with (_ | _ | _ | _ | _ | _ | _) | _ <;> rfl
  | lxi p _ | push p | pop p => cases p <;> rfl
  | nopAlias x =>
    match x with
    | 0#3 | 1#3 | 2#3 | 3#3 | 4#3 | 5#3 | 6#3 | 7#3 => rfl
  | lda _ | sta _ | lhld _ | shld _ | ldax _ | stax _ | inx _ | dcx _ | dad _ | cma | stc | cmc | rst _ => cases h
  | daa | jmpAlias _ | retAlias | callAlias _ _ => cases h
  | _ => rfl

/-- The opcode byte of an unlisted instruction faults as unimplemented only with `UNLISTED_OPS = fault` (R68, R196). -/
theorem unlistedOps_of_faults (h : groupOf i = .unlisted) {u : UnlistedOps}
    (hf : faultsUnimplemented u i.opcode = true) : u = .fault := by
  cases u with
  | fault => rfl
  | i8080 =>
    cases i with
    | ldax p | stax p | inx p | dcx p | dad p => cases p <;> cases hf
    | rst n =>
      match n with
      | 0#3 | 1#3 | 2#3 | 3#3 | 4#3 | 5#3 | 6#3 | 7#3 => cases hf
    | lda _ | sta _ | lhld _ | shld _ | cma | stc | cmc => cases hf
    | _ => cases h

/-- An unlisted instruction with `UNLISTED_OPS = fault` (R197). -/
theorem exec_unlisted (h : groupOf i = .unlisted) (hu : s.params.unlistedOps = .fault) :
    exec i s = .fault (.unimplementedOpcode i.opcode s.pc) := by
  cases i with
  | lda _ | sta _ | lhld _ | shld _ | ldax _ | stax _ | inx _ | dcx _ | dad _ | cma | stc | cmc | rst _ =>
    exact unlisted_fault hu
  | _ => cases h

/-- `DAA` and the five undefined values (R209, R214). -/
theorem exec_faulting (h : groupOf i = .faulting) : exec i s = .fault (.unimplementedOpcode i.opcode s.pc) := by
  cases i with
  | daa | jmpAlias _ | retAlias | callAlias _ _ => rfl
  | _ => cases h

/-- Where the fetch faults as unimplemented, the instruction's own meaning raises the same fault. -/
theorem exec_unimplemented (h : faultsUnimplemented s.params.unlistedOps i.opcode = true) :
    exec i s = .fault (.unimplementedOpcode i.opcode s.pc) := by
  cases hg : groupOf i with
  | listed =>
    rw [faultsUnimplemented_of_listed hg] at h
    cases h
  | unlisted => exact exec_unlisted hg (unlistedOps_of_faults hg h)
  | faulting => exact exec_faulting hg

/-! ### The fetch is the decoder on the bytes at `pc` -/

/-- The opcode byte lies in every store, and of the operand bytes those below `MEM_SIZE` are read (R38, R43). -/
theorem bytesAtPc_cases (s : State) :
    (s.pc.toNat + 2 < s.params.memSize ∧
      bytesAtPc s = [s.peek s.pc.toNat, s.peek (s.pc.toNat + 1), s.peek (s.pc.toNat + 2)]) ∨
    (s.params.memSize = s.pc.toNat + 2 ∧ bytesAtPc s = [s.peek s.pc.toNat, s.peek (s.pc.toNat + 1)]) ∨
    (s.params.memSize = s.pc.toNat + 1 ∧ bytesAtPc s = [s.peek s.pc.toNat]) := by
  have hpc := s.pc.isLt
  have hsize := memSize_ge s.params
  have hcases : s.pc.toNat + 2 < s.params.memSize ∨ s.params.memSize = s.pc.toNat + 2 ∨
      s.params.memSize = s.pc.toNat + 1 := by omega
  obtain h | h | h := hcases
  · have h1 : s.pc.toNat + 1 < s.params.memSize := by omega
    have h0 : s.pc.toNat < s.params.memSize := by omega
    exact .inl ⟨h, by simp [bytesAtPc, h0, h1, h]⟩
  · exact .inr (.inl ⟨h, by simp [bytesAtPc, h]⟩)
  · exact .inr (.inr ⟨h, by simp [bytesAtPc, h]⟩)

/-- What a fetch does with the answer of the decoder: a missing operand byte is an access at `MEM_SIZE`, the first
address outside the store (R70, R233). -/
def runDecoded (s : State) (run : Instr → Result) : Except DecodeError (Instr × List Byte) → Result
  | .ok (i, _) => run i
  | .error _   => .fault (.outOfBoundsAccess s.params.memSize)

/-- The fetch reads operand bytes one by one, as many as the form of the opcode byte asks for (R70). -/
theorem fetch_eq_decode {run : Instr → Result}
    (h : faultsUnimplemented s.params.unlistedOps (s.peek s.pc.toNat) = false) :
    fetch s run = runDecoded s run (decode (bytesAtPc s)) := by
  have hpc := s.pc.isLt
  have hsize := memSize_ge s.params
  unfold fetch
  rw [memRead_word, if_neg (by simp [h])]
  obtain ⟨hs, hbytes⟩ | ⟨hs, hbytes⟩ | ⟨hs, hbytes⟩ := bytesAtPc_cases s
  · have r1 := memRead_in (s := s) (n := s.pc.toNat + 1) (by omega)
    have r2 := memRead_in hs
    push_cast at r1 r2
    cases hform : opForm (s.peek s.pc.toNat) <;> simp [hbytes, decode, hform, runDecoded, r1, r2]
  · have r1 := memRead_in (s := s) (n := s.pc.toNat + 1) (by omega)
    have r2 := memRead_above (s := s) (n := s.pc.toNat + 2) (by omega)
    push_cast at r1 r2
    cases hform : opForm (s.peek s.pc.toNat) <;> simp [hbytes, decode, hform, runDecoded, r1, r2, hs]
  · have r1 := memRead_above (s := s) (n := s.pc.toNat + 1) (by omega)
    push_cast at r1
    cases hform : opForm (s.peek s.pc.toNat) <;> simp [hbytes, decode, hform, runDecoded, r1, hs]

/-- The bytes at `pc` begin with the opcode byte. -/
theorem bytesAtPc_head (s : State) : ∃ bs, bytesAtPc s = s.peek s.pc.toNat :: bs := by
  obtain ⟨-, h⟩ | ⟨-, h⟩ | ⟨-, h⟩ := bytesAtPc_cases s <;> exact ⟨_, h⟩

/-- The instruction that the bytes at `pc` decode to has the opcode byte there. -/
theorem opcode_of_decode_bytesAtPc {rest : List Byte} (h : decode (bytesAtPc s) = .ok (i, rest)) :
    i.opcode = s.peek s.pc.toNat := by
  obtain ⟨-, henc⟩ := encodeOfDecode _ _ _ h
  obtain ⟨bs, hbytes⟩ := bytesAtPc_head s
  exact (List.cons.inj (henc.trans hbytes)).1

/-! ### The statements -/

/-- Settles O6: the fetch runs the decoded instruction (`fetch_eq_decode`), and where it faults as unimplemented
instead, so does the instruction (`exec_unimplemented`). -/
theorem stepRunsDecodedInstruction : Obligations.StepRunsDecodedInstruction := by
  intro s i rest h
  have hop := opcode_of_decode_bytesAtPc h
  cases hf : faultsUnimplemented s.params.unlistedOps (s.peek s.pc.toNat) with
  | true => rw [step, fetch_unimplemented hf, ← hop, exec_unimplemented (hop ▸ hf)]
  | false => rw [step, fetch_eq_decode hf, h, runDecoded]

/-- Settles O8: the decoder misses an operand byte (`decodeTotalConsumesLength`), and that is an access at `MEM_SIZE`
(`fetch_eq_decode`). -/
theorem operandFetchOutOfBounds : Obligations.OperandFetchOutOfBounds := by
  intro s hop hlen
  have hf : faultsUnimplemented s.params.unlistedOps (s.peek s.pc.toNat) = false := by
    rw [Bool.eq_false_iff, ne_eq, faultsUnimplemented_iff]
    exact hop
  have hshort (bs : List Byte) := (decodeTotalConsumesLength (s.peek s.pc.toNat) bs).2.2
  have hmissing : decode (bytesAtPc s) = .error (.missingOperand (s.peek s.pc.toNat)) := by
    obtain ⟨-, hmax⟩ := lengthOf_pos_le (s.peek s.pc.toNat)
    obtain ⟨hs, hbytes⟩ | ⟨hs, hbytes⟩ | ⟨hs, hbytes⟩ := bytesAtPc_cases s
    · omega
    all_goals
      rw [hbytes]
      exact hshort _ (by simp only [List.length_cons, List.length_nil]; omega)
  rw [step, fetch_eq_decode hf, hmissing, runDecoded]

end Sys2Proof.Proofs
end

section
/-! 40_load_move.md: `MVI`, `LXI`, `MOV`. The operand written, for every instruction that writes one
(`advance_writesOperand`), and the operand fetch of every listed instruction (`operandFetchFaults_of_listed`). -/

namespace Sys2Proof.Proofs

open Sys2Proof.Machine Sys2Proof.Spec

variable {s t : State}

/-! ### What changed, from the fields that were written -/

theorem stepped_eq_jumpTo (s : State) (len : Nat) : stepped s len = s.jumpTo (s.after len) := by
  rw [stepped, nextPc_eq_after]
  rfl

theorem onlyReg_of_regs {r : Reg} {v : Byte} (h : t.regs = s.regs.set r v) : OnlyReg s t r v := by
  have hread (r' : Reg) : regVal t r' = if r' = r then v else regVal s r' := by
    rw [← reg_eq_regVal, ← reg_eq_regVal, ← setReg_reg]
    exact reg_congr h r'
  exact ⟨by simp [hread], fun r' hr => by simp [hread, hr]⟩

theorem onlyByte_of_mem {a : Nat} {v : Byte} (h : t.mem = Memory.write s.mem a v) : OnlyByte s t a v := by
  have hread (x : Nat) : t.peek x = if x = a then v else s.peek x := by
    rw [← poke_peek]
    exact peek_eq_of_mem_eq h x
  exact ⟨by simp [hread], fun x hx => by simp [hread, hx]⟩

/-- An instruction that writes flags and an operand and advances (R60): the address of `M` is the old `rp[HL]`. -/
theorem advance_writesOperand (s : State) (f : Flags) (o : Operand) (v : Byte) (len : Nat) :
    ∃ t, advance (writeOperand (s.setFlags f) o v) len = .next t ∧ WritesOperand s t o v f len := by
  refine ⟨_, rfl, ?_⟩
  simp only [WritesOperand, stepped_eq_jumpTo]
  cases o with
  | reg r => exact ⟨onlyReg_of_regs rfl, rfl⟩
  | m => exact ⟨onlyByte_of_mem rfl, rfl⟩

/-! ### The operand fetch -/

/-- A listed instruction never faults as unimplemented (`faultsUnimplemented_of_listed`), so an operand byte of it
outside the store is the fault of the step (`operandFetchOutOfBounds`). -/
theorem operandFetchFaults_of_listed {i : Instr} {op : Byte} {operands : List Byte} (hgroup : groupOf i = .listed)
    (hlen : Laws.EncodeLength.Statement i) (henc : encode i = op :: operands) :
    OperandFetchFaults op (operands.length + 1) := by
  intro s hop hsize
  obtain ⟨rfl, rfl⟩ : i.opcode = op ∧ i.operandBytes = operands := List.cons.inj henc
  apply operandFetchOutOfBounds
  · rw [hop, ← faultsUnimplemented_iff, faultsUnimplemented_of_listed hgroup]
    exact Bool.false_ne_true
  · rw [hop, hlen, encode_length]
    exact hsize

/-! ### The bytes -/

theorem encode_mvi (o : Operand) (v : Byte) : encode (.mvi o v) = [byte (0x06 + 8 * regCode o), v] := by
  rcases o with (_ | _ | _ | _ | _ | _ | _) | _ <;> rfl

theorem encode_lxi (p : Pair) (w : Word) : encode (.lxi p w) = byte (0x01 + 16 * pairCode p) :: lowHigh w := by
  rw [lowHigh, ← lo8_eq_byte, ← hi8_eq_byte]
  cases p <;> rfl

theorem encode_mov (dst src : Operand) :
    encode (.mov dst src) = [byte (0x40 + 8 * regCode dst + regCode src)] := by
  rcases dst with (_ | _ | _ | _ | _ | _ | _) | _ <;> rcases src with (_ | _ | _ | _ | _ | _ | _) | _ <;> rfl

/-! ### The statements -/

/-- Settles O12: `MVI` writes its operand and advances by 2, the flags rewritten as they were
(`advance_writesOperand`). -/
theorem mviResult : Obligations.MviResult := by
  refine ⟨encode_mvi, fun o v s => ?_, fun o => ?_⟩
  · rw [exec, execMvi, dst8_eq_writeOperand]
    exact advance_writesOperand s s.flags o v 2
  · exact operandFetchFaults_of_listed rfl (Laws.EncodeLength.mvi o 0) (encode_mvi o 0)

/-- Settles O13: the high register of a pair takes `hi8`, the low register `lo8`, which are the quotient and the
remainder by 256. -/
theorem lxiResult : Obligations.LxiResult := by
  refine ⟨encode_lxi, fun w s => ?_, fun p => ?_⟩
  · rw [← hi8_eq_byte, ← lo8_eq_byte, stepped_eq_jumpTo]
    exact ⟨rfl, rfl, rfl, rfl⟩
  · exact operandFetchFaults_of_listed rfl (Laws.EncodeLength.lxi p 0) (encode_lxi p 0)

/-- Settles O14: `MOV` reads its source in the state before the step (`src8_eq_operandVal`) and writes it as `MVI`
does. Nothing here depends on the form being no `MOV M,M`: that only `HLT` has its byte is a matter of decoding. -/
theorem movResult : Obligations.MovResult := by
  refine fun dst src _ => ⟨encode_mov dst src, fun s => ?_⟩
  rw [exec, execMov, src8_eq_operandVal, dst8_eq_writeOperand]
  exact advance_writesOperand s s.flags dst (operandVal s src) 1

end Sys2Proof.Proofs
end

section
/-! 41_arithmetic.md: `ADD ADC SUB SBB ADI ACI SUI SBI`. What the flags of a result say (`zspOf_flagsZSP`), the
difference modulo 256 as natural numbers (`ofInt_natSub`), and the effect of the two ALU operations on a state that then
advances (`advance_addEffect`, `advance_subEffect`), which the eight instructions share. -/

namespace Sys2Proof.Proofs

open Sys2Proof.Machine Sys2Proof.Spec

/-! ### `Z`, `S` and `P` of a result (R22) -/

theorem bitCount_eq_popcount (v : Byte) : bitCount v = popcount v := by
  have hbits : List.range 8 = [0, 1, 2, 3, 4, 5, 6, 7] := rfl
  rw [bitCount, ← List.countP_eq_length_filter, hbits]
  simp only [List.countP_cons, List.countP_nil, popcount, Bool.toNat, Bool.cond_eq_ite, Nat.zero_add]
  ac_rfl

theorem getLsbD_seven_iff (v : Byte) : v.getLsbD 7 = true ↔ 128 ≤ v.toNat := by
  have hmsb : v.getLsbD 7 = v.msb := rfl
  rw [hmsb, BitVec.msb_eq_decide, decide_eq_true_iff]

/-- `ZspOf` reads no other flag, so this also speaks of `flagsZSP f v` with another carry. -/
theorem zspOf_flagsZSP (f : Flags) (v : Byte) : ZspOf (flagsZSP f v) v := by
  refine ⟨?_, getLsbD_seven_iff v, ?_⟩
  · rw [flagsZSP_z, beq_iff_eq, BitVec.toNat_eq]
    rfl
  · rw [flagsZSP_p, parity, bitCount_eq_popcount, beq_iff_eq]

/-! ### Sums and differences modulo 256 -/

theorem byte_mod_256 (n : Nat) : byte (n % 256) = byte n := by
  apply BitVec.eq_of_toNat_eq
  simp [byte]

/-- The difference `a - b` reduced modulo 256, with a multiple of 256 added to keep it from falling below 0. -/
theorem ofInt_natSub {a b m : Nat} (hm : 256 ∣ m) (hb : b ≤ m) :
    BitVec.ofInt 8 ((a : Int) - b) = byte ((a + m - b) % 256) := by
  apply BitVec.eq_of_toNat_eq
  simp only [byte, BitVec.toNat_ofInt, BitVec.toNat_ofNat]
  omega

/-- The flags of the difference `a - b` (R91, R112): the borrow is `a < b`. -/
theorem flagsOfDifference_natSub (f : Flags) {a b m : Nat} (hm : 256 ∣ m) (hb : b ≤ m) :
    flagsOfDifference f ((a : Int) - b) =
      { flagsZSP f (byte ((a + m - b) % 256)) with cy := decide (a < b) } := by
  rw [flagsOfDifference, ofInt_natSub hm hb, decide_eq_decide.mpr (sub_neg.trans Nat.cast_lt)]

/-- `A - x - bin` is `A` less the subtrahend `x + bin`, an unbounded natural number (R91). -/
theorem sub_subtrahend (a x bin : Nat) : (a : Int) - x - bin = (a : Int) - (x + bin : Nat) := by
  omega

/-! ### The effect of the eight instructions -/

/-- An addition (R90) and the advance of an instruction of `len` bytes. -/
theorem advance_addEffect (s : State) (x : Byte) (cin : Bool) (len : Nat) :
    ∃ t, advance (aluAdd s x cin) len = .next t ∧ AddEffect s t x cin len := by
  refine ⟨_, rfl, BitVec.toNat_ofNat _ 8, decide_eq_true_iff, zspOf_flagsZSP s.flags _, ?_⟩
  rw [OnlyAccumulatorAndFlags, stepped_eq_jumpTo]
  rfl

/-- A subtraction (R91) and the advance of an instruction of `len` bytes. -/
theorem advance_subEffect (s : State) (x : Byte) (bin : Bool) (len : Nat) :
    ∃ t, advance (aluSub s x bin) len = .next t ∧ SubEffect s t x bin len := by
  have hborrow : ((s.regs.a.toNat : Int) - x.toNat - bin.toNat < 0) ↔ s.regs.a.toNat < x.toNat + bin.toNat := by
    rw [sub_subtrahend, sub_neg, Nat.cast_lt]
  refine ⟨_, rfl, ?_, decide_eq_true_iff.trans hborrow, zspOf_flagsZSP s.flags _, ?_⟩
  · exact (congrArg Nat.cast (BitVec.toNat_ofInt _)).trans (Int.toNat_of_nonneg (Int.emod_nonneg _ (by decide)))
  · rw [OnlyAccumulatorAndFlags, stepped_eq_jumpTo]
    rfl

/-! ### The bytes -/

theorem encode_add_adc (o : Operand) :
    encode (.add o) = [byte (0x80 + regCode o)] ∧ encode (.adc o) = [byte (0x88 + regCode o)] := by
  rcases o with (_ | _ | _ | _ | _ | _ | _) | _ <;> exact ⟨rfl, rfl⟩

theorem encode_sub_sbb (o : Operand) :
    encode (.sub o) = [byte (0x90 + regCode o)] ∧ encode (.sbb o) = [byte (0x98 + regCode o)] := by
  rcases o with (_ | _ | _ | _ | _ | _ | _) | _ <;> exact ⟨rfl, rfl⟩

/-! ### The statements -/

/-- Settles O15: each instruction is `alu_add` on its operand and an advance (`advance_addEffect`). -/
theorem addFamilyResult : Obligations.AddFamilyResult := by
  refine ⟨encode_add_adc, fun v => ⟨rfl, rfl⟩, fun o s => ?_, fun v s => ?_, ?_, ?_⟩
  · simp only [exec, execAdd, execAdc, src8_eq_operandVal]
    exact ⟨advance_addEffect s _ _ 1, advance_addEffect s _ _ 1⟩
  · exact ⟨advance_addEffect s v false 2, advance_addEffect s v s.flags.cy 2⟩
  · exact operandFetchFaults_of_listed rfl (Laws.EncodeLength.adi 0) rfl
  · exact operandFetchFaults_of_listed rfl (Laws.EncodeLength.aci 0) rfl

/-- Settles O16: each instruction is `alu_sub` on its operand and an advance (`advance_subEffect`). -/
theorem subtractFamilyResult : Obligations.SubtractFamilyResult := by
  refine ⟨encode_sub_sbb, fun v => ⟨rfl, rfl⟩, fun o s => ?_, fun v s => ?_, ?_, ?_⟩
  · simp only [exec, execSub, execSbb, src8_eq_operandVal]
    exact ⟨advance_subEffect s _ _ 1, advance_subEffect s _ _ 1⟩
  · exact ⟨advance_subEffect s v false 2, advance_subEffect s v s.flags.cy 2⟩
  · exact operandFetchFaults_of_listed rfl (Laws.EncodeLength.sui 0) rfl
  · exact operandFetchFaults_of_listed rfl (Laws.EncodeLength.sbi 0) rfl

/-- Settles O31: each primitive as its law has it (`aluAdd_eq`, `aluSub_eq`, `aluCmp_eq`), the difference in natural
numbers; a compare is a subtraction of carry 0, `a - x - 0`. -/
theorem aluPrimitivesResult : Obligations.AluPrimitivesResult := by
  intro s x c
  have hx := x.isLt
  have hc := c.toNat_le
  refine ⟨?_, ?_, ?_, ?_, fun f v => ?_⟩
  · rw [byte_mod_256]
    exact aluAdd_eq s x c
  · have hb : x.toNat + c.toNat ≤ 512 := by omega
    rw [aluSub_eq, sub_subtrahend, ofInt_natSub (by decide) hb, flagsOfDifference_natSub _ (by decide) hb]
  · rw [aluCmp_eq, flagsOfDifference_natSub _ (by decide) hx.le]
  · have hzero : (s.regs.a.toNat : Int) - x.toNat - false.toNat = (s.regs.a.toNat : Int) - x.toNat := Int.sub_zero _
    rw [aluCmp_eq, aluSub_eq, hzero]
  · obtain ⟨hz, hs, -⟩ := zspOf_flagsZSP f v
    exact ⟨hz, hs, flagsZSP_cy f v, flagsZSP_ac f v⟩

end Sys2Proof.Proofs
end

section
/-! 42_logical_compare.md: `ANA XRA ORA CMP ANI XRI ORI CPI`. The effect of `alu_logic` and `alu_cmp` on a state that then
advances (`advance_logicEffect`, `advance_compareEffect`), which the eight instructions share. -/

namespace Sys2Proof.Proofs

open Sys2Proof.Machine Sys2Proof.Spec

/-! ### The effect of the eight instructions -/

/-- A logic operation (R105) whose result `res` is `op` bit by bit, and the advance of an instruction of `len` bytes. -/
theorem advance_logicEffect (s : State) {op : Bool → Bool → Bool} {x res : Byte} (len : Nat)
    (hbits : ∀ n, res.getLsbD n = op (s.regs.a.getLsbD n) (x.getLsbD n)) :
    ∃ t, advance (aluLogic s res) len = .next t ∧ LogicEffect s t op x len := by
  refine ⟨_, rfl, fun n _ => hbits n, rfl, zspOf_flagsZSP s.flags res, ?_⟩
  rw [OnlyAccumulatorAndFlags, stepped_eq_jumpTo]
  rfl

theorem advance_andEffect (s : State) (x : Byte) (len : Nat) :
    ∃ t, advance (aluLogic s (s.regs.a &&& x)) len = .next t ∧ LogicEffect s t (fun a b => a && b) x len :=
  advance_logicEffect s len fun _ => BitVec.getLsbD_and

theorem advance_xorEffect (s : State) (x : Byte) (len : Nat) :
    ∃ t, advance (aluLogic s (s.regs.a ^^^ x)) len = .next t ∧ LogicEffect s t (fun a b => a != b) x len :=
  advance_logicEffect s len fun _ => BitVec.getLsbD_xor

theorem advance_orEffect (s : State) (x : Byte) (len : Nat) :
    ∃ t, advance (aluLogic s (s.regs.a ||| x)) len = .next t ∧ LogicEffect s t (fun a b => a || b) x len :=
  advance_logicEffect s len fun _ => BitVec.getLsbD_or

/-- Two bytes differ by less than 256, so their difference modulo 256 is 0 only when they are equal. -/
theorem difference_eq_zero_iff (a x : Byte) : (byte (a.toNat + 256 - x.toNat)).toNat = 0 ↔ a = x := by
  have ha := a.isLt
  have hx := x.isLt
  rw [byte, BitVec.toNat_ofNat, BitVec.toNat_eq]
  omega

/-- A comparison (R112) and the advance of an instruction of `len` bytes. -/
theorem advance_compareEffect (s : State) (x : Byte) (len : Nat) :
    ∃ t, advance (aluCmp s x) len = .next t ∧ CompareEffect s t x len := by
  rw [aluCmp_eq, flagsOfDifference_natSub s.flags (dvd_refl 256) x.isLt.le, byte_mod_256]
  obtain ⟨hz, hs, hp⟩ := zspOf_flagsZSP s.flags (byte (s.regs.a.toNat + 256 - x.toNat))
  refine ⟨_, rfl, hz.trans (difference_eq_zero_iff s.regs.a x), decide_eq_true_iff, ⟨hz, hs, hp⟩, ?_⟩
  rw [stepped_eq_jumpTo]
  rfl

/-! ### The bytes -/

theorem encode_ana_xra_ora (o : Operand) :
    encode (.ana o) = [byte (0xA0 + regCode o)] ∧ encode (.xra o) = [byte (0xA8 + regCode o)] ∧
      encode (.ora o) = [byte (0xB0 + regCode o)] := by
  rcases o with (_ | _ | _ | _ | _ | _ | _) | _ <;> exact ⟨rfl, rfl, rfl⟩

theorem encode_cmp (o : Operand) : encode (.cmp o) = [byte (0xB8 + regCode o)] := by
  rcases o with (_ | _ | _ | _ | _ | _ | _) | _ <;> rfl

/-! ### The statements -/

/-- Settles O17: each instruction is `alu_logic` on `A` and its operand and an advance (`advance_logicEffect`). -/
theorem logicFamilyResult : Obligations.LogicFamilyResult := by
  refine ⟨encode_ana_xra_ora, fun v => ⟨rfl, rfl, rfl⟩, fun o s => ?_, fun v s => ?_, ?_, ?_, ?_⟩
  · simp only [exec, execAna, execXra, execOra, src8_eq_operandVal]
    exact ⟨advance_andEffect s _ 1, advance_xorEffect s _ 1, advance_orEffect s _ 1⟩
  · exact ⟨advance_andEffect s v 2, advance_xorEffect s v 2, advance_orEffect s v 2⟩
  · exact operandFetchFaults_of_listed rfl (Laws.EncodeLength.ani 0) rfl
  · exact operandFetchFaults_of_listed rfl (Laws.EncodeLength.xri 0) rfl
  · exact operandFetchFaults_of_listed rfl (Laws.EncodeLength.ori 0) rfl

/-- Settles O18: each instruction is `alu_cmp` on its operand and an advance (`advance_compareEffect`). -/
theorem compareResult : Obligations.CompareResult := by
  refine ⟨encode_cmp, fun v => rfl, fun o s => ?_, fun v s => advance_compareEffect s v 2, ?_⟩
  · rw [exec, execCmp, src8_eq_operandVal]
    exact advance_compareEffect s _ 1
  · exact operandFetchFaults_of_listed rfl (Laws.EncodeLength.cpi 0) rfl

end Sys2Proof.Proofs
end

section
/-! 43_incdec_rotate.md: `INR DCR RLC RRC RAL RAR`. What an operand written says of the state after it (`WritesOperand`),
the effect of an increment or decrement (`advance_incDecEffect`), and the bits of a byte shifted by one with a carry
entering (`getLsbD_shiftIn_low`, `getLsbD_shiftIn_high`), which the four rotates share. -/

namespace Sys2Proof.Proofs

open Sys2Proof.Machine Sys2Proof.Spec

variable {s t : State}

/-! ### The state after an operand is written (R60) -/

theorem writesOperand_flags {o : Operand} {v : Byte} {f : Flags} {len : Nat} (h : WritesOperand s t o v f len) :
    t.flags = f := by
  cases o with
  | reg r | m =>
    obtain ⟨-, ht⟩ := h
    rw [ht]

/-- The operand read again: writing the byte at `rp[HL]` does not move `rp[HL]`. -/
theorem writesOperand_operandVal {o : Operand} {v : Byte} {f : Flags} {len : Nat} (h : WritesOperand s t o v f len) :
    operandVal t o = v := by
  cases o with
  | reg r =>
    obtain ⟨⟨hval, -⟩, -⟩ := h
    exact hval
  | m =>
    obtain ⟨⟨hval, -⟩, ht⟩ := h
    have haddr : pairVal t .hl = pairVal s .hl := by rw [ht]; rfl
    rw [operandVal, haddr, hval]

/-! ### Increment and decrement -/

theorem add_one_eq_byte (x : Byte) : x + 1 = byte (x.toNat + 1) := by
  rw [byte, BitVec.ofNat_add, BitVec.ofNat_toNat, BitVec.setWidth_eq]
  rfl

/-- Less 1 is plus 255 modulo 256. -/
theorem sub_one_eq_byte (x : Byte) : x - 1 = byte (x.toNat + 255) := by
  rw [byte, BitVec.ofNat_add, BitVec.ofNat_toNat, BitVec.setWidth_eq]
  exact BitVec.sub_eq_add_neg x 1

/-- The flags of R120 and the operand written, and the advance of an instruction of one byte. -/
theorem advance_incDecEffect (s : State) (o : Operand) (v : Byte) :
    ∃ t, advance (writeOperand (flagsIncDec s v) o v) 1 = .next t ∧ ZspOf t.flags v ∧
      WritesOperand s t o v { t.flags with cy := s.flags.cy, ac := s.flags.ac } 1 := by
  obtain ⟨t, hnext, hwrites⟩ := advance_writesOperand s (flagsZSP s.flags v) o v 1
  refine ⟨t, hnext, ?_⟩
  rw [writesOperand_flags hwrites]
  exact ⟨zspOf_flagsZSP s.flags v, hwrites⟩

/-! ### Rotates -/

theorem getLsbD_bitByte (c : Bool) (n : Nat) : (bitByte c).getLsbD n = (decide (n = 0) && c) := by
  rw [bitByte, BitVec.getLsbD_ofNat, Nat.testBit_bool_toNat]
  by_cases h : n = 0 <;> simp [h]

/-- Shifted up by one place, with `c` entering at bit 0 (R124, R126). -/
theorem getLsbD_shiftIn_low (a : Byte) (c : Bool) {n : Nat} (hn : n < 8) :
    (a <<< 1 ||| bitByte c).getLsbD n = if n = 0 then c else a.getLsbD (n - 1) := by
  rw [BitVec.getLsbD_or, BitVec.getLsbD_shiftLeft, getLsbD_bitByte]
  by_cases h : n = 0
  · simp [h]
  · have : ¬ n < 1 := by omega
    simp [h, hn, this]

/-- Shifted down by one place, with `c` entering at bit 7 (R125, R127). -/
theorem getLsbD_shiftIn_high (a : Byte) (c : Bool) {n : Nat} (hn : n < 8) :
    (a >>> 1 ||| bitByte c <<< 7).getLsbD n = if n = 7 then c else a.getLsbD (n + 1) := by
  rw [BitVec.getLsbD_or, BitVec.getLsbD_ushiftRight, BitVec.getLsbD_shiftLeft, getLsbD_bitByte, Nat.add_comm 1 n]
  by_cases h : n = 7
  · simp [h]
  · have : n < 7 := by omega
    simp [h, this]

/-- `A` and the carry written (R123), and the advance of an instruction of one byte. -/
theorem advance_rotateEffect (s : State) {a : Byte} {bit : Nat → Bool} (cy : Bool)
    (hbits : ∀ n, n < 8 → a.getLsbD n = bit n) :
    ∃ t, advance (rotateResult s a cy) 1 = .next t ∧ RotateEffect s t bit cy := by
  refine ⟨_, rfl, hbits, ?_⟩
  rw [stepped_eq_jumpTo]
  rfl

/-! ### The bytes -/

theorem encode_inr_dcr (o : Operand) :
    encode (.inr o) = [byte (0x04 + 8 * regCode o)] ∧ encode (.dcr o) = [byte (0x05 + 8 * regCode o)] := by
  rcases o with (_ | _ | _ | _ | _ | _ | _) | _ <;> exact ⟨rfl, rfl⟩

/-! ### The statements -/

/-- Settles O19: each instruction reads its operand, changes it by 1 modulo 256 and writes it back with the flags of the
result (`advance_incDecEffect`). -/
theorem incrementDecrementResult : Obligations.IncrementDecrementResult := by
  refine ⟨encode_inr_dcr, fun o s => ?_⟩
  simp only [exec, execInr, execDcr, src8_eq_operandVal, dst8_eq_writeOperand, add_one_eq_byte, sub_one_eq_byte]
  exact ⟨advance_incDecEffect s o _, advance_incDecEffect s o _⟩

/-- Settles O20: `RLC` and `RAL` shift up by one place, `RRC` and `RAR` down; they differ in the bit that enters. -/
theorem rotateResult : Obligations.RotateResult :=
  ⟨rfl, rfl, rfl, rfl, fun s =>
    ⟨advance_rotateEffect s _ fun _ => getLsbD_shiftIn_low _ _,
      advance_rotateEffect s _ fun _ => getLsbD_shiftIn_high _ _,
      advance_rotateEffect s _ fun _ => getLsbD_shiftIn_low _ _,
      advance_rotateEffect s _ fun _ => getLsbD_shiftIn_high _ _⟩⟩

/-- Settles O55: by O19 the second instruction changes by 1 the byte that the first one left in the operand
(`writesOperand_operandVal`), and the two changes add up to 256. -/
theorem incrementDecrementInverse : Obligations.IncrementDecrementInverse := by
  intro o s
  obtain ⟨-, heffect⟩ := incrementDecrementResult
  obtain ⟨⟨t, ht, -, hwt⟩, ⟨t', ht', -, hwt'⟩⟩ := heffect o s
  obtain ⟨-, u, hu, -, hwu⟩ := heffect o t
  obtain ⟨⟨u', hu', -, hwu'⟩, -⟩ := heffect o t'
  refine ⟨⟨t, u, ht, hu, ?_⟩, ⟨t', u', ht', hu', ?_⟩⟩
  · rw [writesOperand_operandVal hwu, writesOperand_operandVal hwt, ← add_one_eq_byte, ← sub_one_eq_byte,
      BitVec.add_sub_cancel]
  · rw [writesOperand_operandVal hwu', writesOperand_operandVal hwt', ← sub_one_eq_byte, ← add_one_eq_byte,
      BitVec.sub_add_cancel]

end Sys2Proof.Proofs
end

section
/-! 44_stack.md: `PUSH POP PUSH PSW POP PSW`. What a push and a pop do in each range of `sp` (`push16_advance`,
`push16_below`, `pop16_inside`, `pop16_outside`), and that a pop takes back the bytes a push left (`pop16_of_pushed`). -/

namespace Sys2Proof.Proofs

open Sys2Proof.Machine Sys2Proof.Spec

variable {s t u : State} {hi lo : Byte}

/-! ### A push (R130) -/

theorem byte_toNat (v : Byte) : byte v.toNat = v := by rw [byte, BitVec.ofNat_toNat, BitVec.setWidth_eq]

theorem onlyTwoBytes_of_mem {a b : Nat} {v w : Byte} (hab : a ≠ b)
    (h : t.mem = Memory.write (Memory.write s.mem a v) b w) : OnlyTwoBytes s t a v b w := by
  have hread (x : Nat) : t.peek x = if x = b then w else if x = a then v else s.peek x := by
    rw [← poke_peek, ← poke_peek]
    exact peek_eq_of_mem_eq h x
  exact ⟨by simp [hread, hab], by simp [hread], fun x ha hb => by simp [hread, ha, hb]⟩

/-- The two addresses of a push differ, and `sp - 2` needs no reduction, because `sp` is at least 2. -/
theorem pushed_of_sp_mem (hsp : 2 ≤ s.sp.toNat) (ht : t.sp = s.sp - 2) (hm : t.mem = (pushed s hi lo).mem) :
    Pushed s t hi.toNat lo.toNat := by
  have hlt := s.sp.isLt
  refine ⟨?_, ?_⟩
  · have htwo : (2 : Word).toNat = 2 := rfl
    rw [ht, BitVec.toNat_sub, htwo]
    omega
  · rw [byte_toNat, byte_toNat]
    exact onlyTwoBytes_of_mem (by omega) hm

/-- A push and the advance of an instruction of one byte. -/
theorem push16_advance (hsp : 2 ≤ s.sp.toNat) (hi lo : Byte) :
    ∃ t, push16 s hi lo (fun s1 => advance s1 1) = .next t ∧ Pushed s t hi.toNat lo.toNat ∧
      t = { stepped s 1 with sp := t.sp, mem := t.mem } := by
  refine ⟨_, push16_next.mpr ⟨hsp, rfl⟩, pushed_of_sp_mem hsp rfl rfl, ?_⟩
  rw [stepped_eq_jumpTo]
  rfl

theorem push16_below (hsp : s.sp.toNat < 2) (hi lo : Byte) (k : State → Result) :
    push16 s hi lo k = .fault (.outOfBoundsAccess (-1)) := by
  rw [push16_eq, if_pos hsp, raise]

/-! ### A pop (R131) -/

theorem poppedSp_eq (s : State) : poppedSp s = s.sp + 2 := by
  rw [poppedSp, BitVec.ofNat_add, BitVec.ofNat_toNat, BitVec.setWidth_eq]
  rfl

theorem pop16_inside (hsp : s.sp.toNat + 1 < s.params.memSize) (k : Byte → Byte → State → Result) :
    pop16 s k = k (s.peek (s.sp.toNat + 1)) (s.peek s.sp.toNat) (s.setSp (poppedSp s)) := by
  rw [pop16_eq, if_pos hsp, poppedSp_eq]

theorem pop16_outside (hsp : s.params.memSize ≤ s.sp.toNat + 1) (k : Byte → Byte → State → Result) :
    pop16 s k = .fault (.outOfBoundsAccess (s.sp.toNat + 1)) := by
  rw [pop16_eq, if_neg (Nat.not_lt.mpr hsp), raise]

/-- A pop takes back what a push left (R136). It reads only `sp` and memory, which `u` shares with `t`; both bytes lie in
the store because they are below the `sp` before the push, which is a word. -/
theorem pop16_of_pushed (h : Pushed s t hi.toNat lo.toNat) (hsp : u.sp = t.sp) (hm : u.mem = t.mem)
    (k : Byte → Byte → State → Result) : pop16 u k = k hi lo (u.setSp s.sp) := by
  obtain ⟨hdown, hhi, hlo, -⟩ := h
  have hlt := s.sp.isLt
  have hsize := memSize_ge u.params
  have hback : poppedSp u = s.sp := by rw [poppedSp, hsp, hdown, BitVec.ofNat_toNat, BitVec.setWidth_eq]
  have hhigh : t.sp.toNat + 1 = s.sp.toNat - 1 := by omega
  have hlow : t.sp.toNat = s.sp.toNat - 2 := by omega
  have hin : u.sp.toNat + 1 < u.params.memSize := by rw [hsp]; omega
  rw [pop16_inside hin, hback, peek_eq_of_mem_eq hm, peek_eq_of_mem_eq hm, hsp, hhigh, hlow, hhi, hlo, byte_toNat,
    byte_toNat]

/-! ### The pair and the flag byte -/

theorem pairVal_ofStack (s : State) (p : StackPair) :
    pairVal s (ofStack p) = (s.stackPair p).1.toNat * 256 + (s.stackPair p).2.toNat := by
  cases p <;> rfl

theorem pairVal_setStackPair (s : State) (p : StackPair) (hi lo : Byte) :
    pairVal (s.setStackPair p hi lo) (ofStack p) = hi.toNat * 256 + lo.toNat := by
  cases p <;> rfl

/-- The flag byte by the weights of its bits (R25). -/
theorem pswPack_toNat (f : Flags) :
    (pswPack f).toNat =
      128 * f.s.toNat + 64 * f.z.toNat + 16 * f.ac.toNat + 4 * f.p.toNat + 2 + f.cy.toNat := by
  rcases f with ⟨_ | _, _ | _, _ | _, _ | _, _ | _⟩ <;> rfl

/-- The five bits of a flag byte by division (R26). -/
theorem pswUnpack_eq (v : Byte) :
    pswUnpack v =
      { s  := decide (v.toNat / 128 % 2 = 1)
        z  := decide (v.toNat / 64 % 2 = 1)
        ac := decide (v.toNat / 16 % 2 = 1)
        p  := decide (v.toNat / 4 % 2 = 1)
        cy := decide (v.toNat % 2 = 1) } := by
  simp only [pswUnpack, ← BitVec.testBit_toNat, Nat.testBit_eq_decide_div_mod_eq, Nat.reducePow, Nat.div_one]

/-! ### The instructions -/

theorem exec_push (p : StackPair) (s : State) :
    exec (.push p) s = push16 s (s.stackPair p).1 (s.stackPair p).2 fun s1 => advance s1 1 := rfl

theorem exec_pushPsw (s : State) :
    exec .pushPsw s = push16 s s.regs.a (pswPack s.flags) fun s1 => advance s1 1 := rfl

theorem exec_pop (p : StackPair) (s : State) :
    exec (.pop p) s = pop16 s fun hi lo s1 => advance (s1.setStackPair p hi lo) 1 := rfl

theorem exec_popPsw (s : State) :
    exec .popPsw s = pop16 s fun hi lo s1 => advance ((s1.setFlags (pswUnpack lo)).setReg .a hi) 1 := rfl

theorem encode_push (p : StackPair) : encode (.push p) = [byte (0xC5 + 16 * pairCode (ofStack p))] := by
  cases p <;> rfl

theorem encode_pop (p : StackPair) : encode (.pop p) = [byte (0xC1 + 16 * pairCode (ofStack p))] := by
  cases p <;> rfl

/-! ### The statements -/

/-- Settles O21: the two registers of the pair are pushed (`push16_advance`); they are the quotient and the remainder
of its value by 256. -/
theorem pushResult : Obligations.PushResult := by
  refine fun p => ⟨encode_push p, fun s => ?_⟩
  have hlo := (s.stackPair p).2.isLt
  have hdiv : pairVal s (ofStack p) / 256 = (s.stackPair p).1.toNat := by rw [pairVal_ofStack]; omega
  have hmod : pairVal s (ofStack p) % 256 = (s.stackPair p).2.toNat := by rw [pairVal_ofStack]; omega
  rw [exec_push, hdiv, hmod]
  exact ⟨fun hsp => push16_advance hsp _ _, fun hsp => push16_below hsp _ _ _⟩

/-- Settles O23: `A` and the flag byte (`pswPack_toNat`) are pushed (`push16_advance`). -/
theorem pushPswResult : Obligations.PushPswResult := by
  refine ⟨rfl, fun s => ?_⟩
  rw [exec_pushPsw, ← pswPack_toNat]
  exact ⟨fun hsp => push16_advance hsp _ _, fun hsp => push16_below hsp _ _ _⟩

/-- Settles O22: the two bytes of `pop16_inside` go into the pair, or there is the fault of `pop16_outside`. -/
theorem popResult : Obligations.PopResult := by
  refine ⟨encode_pop, fun s => ?_⟩
  simp only [exec_pop, stepped_eq_jumpTo]
  refine ⟨fun hsp => ?_, fun hsp p => pop16_outside hsp _⟩
  simp only [pop16_inside hsp]
  exact ⟨rfl, rfl, rfl⟩

/-- Settles O24: the byte at `sp` is unpacked bit by bit (`pswUnpack_eq`), the byte at `sp + 1` goes into `A`. -/
theorem popPswResult : Obligations.PopPswResult := by
  refine ⟨rfl, fun s => ?_⟩
  rw [exec_popPsw]
  refine ⟨fun hsp => ?_, fun hsp => pop16_outside hsp _⟩
  rw [pop16_inside hsp, pswUnpack_eq, stepped_eq_jumpTo]
  rfl

/-- Settles O56: the pop takes back the two registers pushed, whatever registers it meets (`pop16_of_pushed`). -/
theorem pushThenPopRestores : Obligations.PushThenPopRestores := by
  intro p s rs hsp
  obtain ⟨t, ht, hpushed, -⟩ := push16_advance hsp (s.stackPair p).1 (s.stackPair p).2
  have hpop := pop16_of_pushed (u := { t with regs := rs }) hpushed rfl rfl
  refine ⟨t, _, ht, (exec_pop p _).trans (hpop _), ?_, setStackPair_sp _ _ _ _⟩
  rw [pairVal_ofStack s]
  exact pairVal_setStackPair _ p _ _

/-- Settles O57: the pop takes back `A` and the flag byte (`pop16_of_pushed`), and unpacking that byte undoes its
packing (`pswUnpack_pswPack`). -/
theorem pushPswThenPopPswRestores : Obligations.PushPswThenPopPswRestores := by
  intro s rs f hsp
  obtain ⟨t, ht, hpushed, -⟩ := push16_advance hsp s.regs.a (pswPack s.flags)
  have hpop := pop16_of_pushed (u := { t with regs := rs, flags := f }) hpushed rfl rfl
  exact ⟨t, _, ht, (exec_popPsw _).trans (hpop _), pswUnpack_pswPack s.flags, rfl, rfl⟩

end Sys2Proof.Proofs
end

section
/-! 45_control_transfer.md: jumps, calls and returns. Each conditional form is the unconditional one behind its
condition (`exec_jumpOn`, `exec_callOn`, `exec_returnOn`); a call is a push of the return address and a transfer
(`calls_of_exec_eq`), a return is a pop and a transfer (`returns_of_exec_eq`). -/

namespace Sys2Proof.Proofs

open Sys2Proof.Machine Sys2Proof.Spec

variable {s : State} {i : Instr}

/-! ### The instructions -/

theorem exec_call (w : Word) (s : State) :
    exec (.call w) s = push16 s (hi8 (s.after 3)) (lo8 (s.after 3)) fun s1 => transfer s1 w := rfl

theorem exec_ret (s : State) : exec .ret s = pop16 s fun hi lo s1 => transfer s1 (pair16 hi lo) := rfl

theorem exec_jumpOn (k : Cond) (w : Word) (s : State) : exec (jumpOn k w) s = jumpIf (taken s.flags k) w s := by
  rw [← condHolds_eq_taken]
  cases k <;> rfl

theorem exec_callOn (k : Cond) (w : Word) (s : State) : exec (callOn k w) s = callIf (taken s.flags k) w s := by
  rw [← condHolds_eq_taken]
  cases k <;> rfl

theorem exec_returnOn (k : Cond) (s : State) : exec (returnOn k) s = returnIf (taken s.flags k) s := by
  rw [← condHolds_eq_taken]
  cases k <;> rfl

theorem advance_eq_stepped (s : State) (len : Nat) : advance s len = .next (stepped s len) := by
  rw [advance, stepped_eq_jumpTo]

/-! ### Calls and returns (R151, R160) -/

/-- A push and a transfer, which adds nothing to `target`. -/
theorem push16_transfer (hsp : 2 ≤ s.sp.toNat) (hi lo : Byte) (target : Word) :
    ∃ t, push16 s hi lo (fun s1 => transfer s1 target) = .next t ∧ Pushed s t hi.toNat lo.toNat ∧
      t = { s with sp := t.sp, mem := t.mem, pc := target, result := .continued } :=
  ⟨_, push16_next.mpr ⟨hsp, rfl⟩, pushed_of_sp_mem hsp rfl rfl, rfl⟩

/-- The two bytes pushed are the halves of the return address. -/
theorem calls_of_exec_eq {target : Word} {len : Nat}
    (h : exec i s = push16 s (hi8 (s.after len)) (lo8 (s.after len)) fun s1 => transfer s1 target) :
    Calls i s target len := by
  rw [Calls, h, nextPc_eq_after, ← hi8_toNat, ← lo8_toNat]
  exact ⟨fun hsp => push16_transfer hsp _ _ target, fun hsp => push16_below hsp _ _ _⟩

/-- The two bytes popped are the target (`topWord_eq_pair16`). -/
theorem returns_of_exec_eq (h : exec i s = pop16 s fun hi lo s1 => transfer s1 (pair16 hi lo)) : Returns i s := by
  rw [Returns, h]
  refine ⟨fun hsp => ?_, fun hsp => pop16_outside hsp _⟩
  rw [pop16_inside hsp, topWord_eq_pair16]
  rfl

/-! ### The bytes -/

theorem lowHigh_eq_halves (w : Word) : lowHigh w = [lo8 w, hi8 w] := by
  rw [lowHigh, ← lo8_eq_byte, ← hi8_eq_byte]

theorem encode_jumpOn (k : Cond) (w : Word) :
    encode (jumpOn k w) = byte (0xC2 + 8 * condCode k) :: lowHigh w := by
  rw [lowHigh_eq_halves]
  cases k <;> rfl

theorem encode_callOn (k : Cond) (w : Word) :
    encode (callOn k w) = byte (0xC4 + 8 * condCode k) :: lowHigh w := by
  rw [lowHigh_eq_halves]
  cases k <;> rfl

theorem encode_returnOn (k : Cond) : encode (returnOn k) = [byte (0xC0 + 8 * condCode k)] := by
  cases k <;> rfl

theorem encode_jmp (w : Word) : encode (.jmp w) = 0xC3 :: lowHigh w := by
  rw [lowHigh_eq_halves]
  rfl

theorem encode_call (w : Word) : encode (.call w) = 0xCD :: lowHigh w := by
  rw [lowHigh_eq_halves]
  rfl

/-! ### The operand fetch, which precedes the test of the condition -/

theorem operandFetchFaults_jumpOn (k : Cond) : OperandFetchFaults (byte (0xC2 + 8 * condCode k)) 3 := by
  refine operandFetchFaults_of_listed ?_ ?_ (encode_jumpOn k 0)
  all_goals cases k <;> rfl

theorem operandFetchFaults_callOn (k : Cond) : OperandFetchFaults (byte (0xC4 + 8 * condCode k)) 3 := by
  refine operandFetchFaults_of_listed ?_ ?_ (encode_callOn k 0)
  all_goals cases k <;> rfl

/-! ### The statements -/

/-- Settles O25: a jump writes its target or the successor into `pc` and nothing else. -/
theorem jumpResult : Obligations.JumpResult := by
  refine ⟨encode_jmp, encode_jumpOn, fun w s => rfl, fun k w s => ?_, ?_, operandFetchFaults_jumpOn⟩
  · rw [exec_jumpOn, jumpIf, advance_eq_stepped]
    cases taken s.flags k <;> rfl
  · exact operandFetchFaults_of_listed rfl (Laws.EncodeLength.jmp 0) (encode_jmp 0)

/-- Settles O26: a taken call pushes the return address (`calls_of_exec_eq`), one not taken only advances. -/
theorem callResult : Obligations.CallResult := by
  refine ⟨encode_call, encode_callOn, fun w s => calls_of_exec_eq (exec_call w s),
    fun k w s => ⟨fun hk => ?_, fun hk => ?_⟩, ?_, operandFetchFaults_callOn⟩
  · refine calls_of_exec_eq ?_
    rw [exec_callOn, hk]
    rfl
  · rw [exec_callOn, hk, ← advance_eq_stepped]
    rfl
  · exact operandFetchFaults_of_listed rfl (Laws.EncodeLength.call 0) (encode_call 0)

/-- Settles O27: a taken return pops its target (`returns_of_exec_eq`), one not taken only advances. -/
theorem returnResult : Obligations.ReturnResult := by
  refine ⟨rfl, encode_returnOn, fun s => returns_of_exec_eq (exec_ret s), fun k s => ⟨fun hk => ?_, fun hk => ?_⟩⟩
  · refine returns_of_exec_eq ?_
    rw [exec_returnOn, hk]
    rfl
  · rw [exec_returnOn, hk, ← advance_eq_stepped]
    rfl

/-- Settles O58: the pop of `RET` takes back the halves of the return address and the old `sp` (`pop16_of_pushed`). -/
theorem callThenRetReturns : Obligations.CallThenRetReturns := by
  intro w s hsp
  obtain ⟨t, ht, hpushed, hframe⟩ := push16_transfer hsp (hi8 (s.after 3)) (lo8 (s.after 3)) w
  have hpop := pop16_of_pushed (u := t) hpushed rfl rfl
  refine ⟨t, _, ht, congrArg State.pc hframe, (exec_ret t).trans (hpop _), ?_, rfl⟩
  rw [nextPc_eq_after]
  exact pair16_hi8_lo8 (s.after 3)

end Sys2Proof.Proofs
end

section
/-! 46_exchange_sp_pc.md: `XCHG XTHL SPHL PCHL`. The state that `XCHG` leaves (`exec_xchg`), what `XTHL` does in each
range of `sp` (`exec_xthl_inside`, `exec_xthl_outside`), and two steps in sequence (`stepped_stepped`). -/

namespace Sys2Proof.Proofs

open Sys2Proof.Machine Sys2Proof.Spec

variable {s t u : State}

/-! ### The exchange of registers (R176) -/

/-- The bytes of `HL` and `DE` cross over unchanged, as the halves of a pair. -/
theorem exec_xchg (s : State) :
    exec .xchg s = .next { stepped s 1 with regs :=
      { s.regs with h := s.regs.d, l := s.regs.e, d := s.regs.h, e := s.regs.l } } := by
  rw [exec, execXchg, advance_eq_stepped]
  simp only [State.setPair, State.pair, hi8_pair16, lo8_pair16]
  rfl

/-! ### The exchange with the top of the stack (R177) -/

/-- With `sp + 1` in the store all four accesses pass: `sp` itself is a word, and the first write leaves the size of the
store as it is. -/
theorem exec_xthl_inside (hsp : s.sp.toNat + 1 < s.params.memSize) :
    exec .xthl s = advance (dataEffect s .xthl) 1 := by
  rw [exec, execXthl, memRead_word, ← Nat.cast_succ, memRead_in hsp, memWrite_word,
    memWrite_in (s := s.poke _ _) hsp]
  rfl

/-- The read at `sp + 1` faults, before anything is written. -/
theorem exec_xthl_outside (hsp : s.params.memSize ≤ s.sp.toNat + 1) :
    exec .xthl s = .fault (.outOfBoundsAccess (s.sp.toNat + 1)) := by
  rw [exec, execXthl, memRead_word, ← Nat.cast_succ, memRead_above hsp]

/-! ### Two steps in sequence -/

/-- The lengths add up, because `pc` is reduced modulo 65536 (R15). -/
theorem stepped_stepped (s : State) (m n : Nat) : stepped (stepped s m) n = stepped s (m + n) := by
  have hpc : (stepped s m).after n = s.after (m + n) := by
    rw [State.after, State.after, BitVec.ofNat_add, ← BitVec.add_assoc, stepped, nextPc_eq_after, State.after]
  rw [stepped_eq_jumpTo, stepped_eq_jumpTo s (m + n), hpc]
  rfl

/-- Two bytes exchanged and exchanged back. -/
theorem peek_of_onlyTwoBytes_twice {a b : Nat} {v w : Byte} (hst : OnlyTwoBytes s t a v b w)
    (htu : OnlyTwoBytes t u a (s.peek a) b (s.peek b)) (x : Nat) : u.peek x = s.peek x := by
  obtain ⟨-, -, hkeep⟩ := hst
  obtain ⟨ha, hb, hkeep'⟩ := htu
  by_cases hxa : x = a
  · rw [hxa, ha]
  · by_cases hxb : x = b
    · rw [hxb, hb]
    · rw [hkeep' x hxa hxb, hkeep x hxa hxb]

/-! ### The statements -/

/-- Settles O29: the two writes of `exec_xthl_inside` are to different addresses (`onlyTwoBytes_of_mem`), or there is
the fault of `exec_xthl_outside`. -/
theorem xthlResult : Obligations.XthlResult := by
  refine ⟨rfl, fun s => ⟨fun hsp => ?_, exec_xthl_outside⟩⟩
  refine ⟨_, exec_xthl_inside hsp, onlyTwoBytes_of_mem (Nat.ne_add_one _) rfl, ?_⟩
  rw [stepped_eq_jumpTo]
  rfl

/-- Settles O59: the second `XCHG` crosses the four registers back (`exec_xchg`). By O29 the second `XTHL` finds the old
`L` and `H` in memory and the old bytes in `L` and `H`, at the same `sp`. -/
theorem exchangeTwiceRestores : Obligations.ExchangeTwiceRestores := by
  refine fun s => ⟨⟨_, exec_xchg s, ?_⟩, fun hsp => ?_⟩
  · rw [exec_xchg, ← stepped_stepped s 1 1]
    rfl
  · obtain ⟨-, hxthl⟩ := xthlResult
    obtain ⟨hinside, -⟩ := hxthl s
    obtain ⟨t, ht, hst, hframe⟩ := hinside hsp
    have hsp' : t.sp = s.sp := by rw [hframe]; rfl
    have hparams : t.params = s.params := by rw [hframe]; rfl
    have hl : t.regs.l = s.peek s.sp.toNat := by rw [hframe]
    have hh : t.regs.h = s.peek (s.sp.toNat + 1) := by rw [hframe]
    obtain ⟨hinside', -⟩ := hxthl t
    obtain ⟨u, hu, htu, hframe'⟩ := hinside' (by rwa [hsp', hparams])
    rw [hsp', hl, hh] at htu
    refine ⟨t, u, ht, hu, peek_of_onlyTwoBytes_twice hst htu, ?_⟩
    obtain ⟨hlow, hhigh, -⟩ := hst
    rw [hsp', hlow, hhigh] at hframe'
    rw [hframe', ← stepped_stepped s 1 1, hframe]
    rfl

/-- Settles O28: `XCHG` crosses four registers (`exec_xchg`); `SPHL` and `PCHL` load the value of `HL`
(`ofNat_pairVal`). -/
theorem exchangeRegisterResult : Obligations.ExchangeRegisterResult := by
  refine ⟨rfl, rfl, rfl, fun s => ⟨exec_xchg s, ?_, ?_⟩⟩
  · rw [ofNat_pairVal, stepped_eq_jumpTo]
    rfl
  · rw [ofNat_pairVal]
    rfl

end Sys2Proof.Proofs
end

section
/-! 47_io_int_halt_nop.md: `IN`, `OUT`, `EI`, `DI`, `HLT`, `NOP`. The state that `IN` leaves, whatever byte the host
answers (`exec_inPort`); the others complete with fixed fields changed. -/

namespace Sys2Proof.Proofs

open Sys2Proof.Machine Sys2Proof.Spec

variable {s : State}

/-! ### The I/O Port (R184): which byte an `IN` receives -/

theorem ioAnswer_of_listed {v : Byte} {later : List Byte} (h : s.ioAnswers = v :: later) (port : Byte) :
    s.ioAnswer port = v := by
  rw [State.ioAnswer, h]

/-- The answer lands in `A` and in the record, and is used up if it was a listed one. -/
theorem exec_inPort (port : Byte) (s : State) :
    exec (.inPort port) s = .next { stepped s 2 with
      regs := { s.regs with a := s.ioAnswer port }
      ioAnswers := s.ioAnswers.tail
      ioHistory := .input port (s.ioAnswer port) :: s.ioHistory } := by
  rw [exec, execInPort, ioRead, advance_eq_stepped]
  rfl

theorem exec_outPort (port : Byte) (s : State) :
    exec (.outPort port) s = .next { stepped s 2 with ioHistory := .output port s.regs.a :: s.ioHistory } := by
  rw [exec, execOutPort, ioWrite, advance_eq_stepped]
  rfl

/-! ### The bytes -/

theorem encode_nopAlias (x : BitVec 3) : encode (.nopAlias x) = [byte (8 * x.toNat)] := by
  revert x
  decide

/-! ### The statements -/

/-- Settles O30: `IN` delivers the byte the host answers (`exec_inPort`), the first one listed (`ioAnswer_of_listed`) or,
with none listed, the host's free value. -/
theorem inDeliversHostsAnswer : Obligations.InDeliversHostsAnswer := by
  refine ⟨fun port => rfl, fun port v later s hlisted => ?_, fun port s hnone => ⟨s.ioAnswer port, ?_⟩, ?_⟩
  · rw [exec_inPort, ioAnswer_of_listed hlisted, hlisted]
    rfl
  · have hkept : s.ioAnswers.tail = s.ioAnswers := by simp [hnone]
    rw [exec_inPort, hkept]
    rfl
  · exact operandFetchFaults_of_listed rfl (Laws.EncodeLength.inPort 0) rfl

/-- Settles O32: `OUT` only records the access (`exec_outPort`). -/
theorem outSendsAccumulator : Obligations.OutSendsAccumulator :=
  ⟨fun _ => rfl, exec_outPort, operandFetchFaults_of_listed rfl (Laws.EncodeLength.outPort 0) rfl⟩

/-- Settles O33: each writes its bit and advances (`advance_eq_stepped`). -/
theorem interruptEnableResult : Obligations.InterruptEnableResult :=
  ⟨rfl, rfl, fun s => ⟨advance_eq_stepped (s.setInte true) 1, advance_eq_stepped (s.setInte false) 1⟩⟩

/-- Settles O34: `NOP` and its aliases advance and do nothing else (`advance_eq_stepped`); `HLT` puts the same successor
into `pc` (`nextPc_eq_after`) and answers `Halted`. -/
theorem haltAndNopResult : Obligations.HaltAndNopResult := by
  refine ⟨rfl, rfl, encode_nopAlias, fun s => ⟨?_, advance_eq_stepped s 1, fun _ => advance_eq_stepped s 1⟩⟩
  rw [nextPc_eq_after]
  rfl

end Sys2Proof.Proofs
end

section
/-! 48_unlisted.md: the thirteen mnemonics that `UNLISTED_OPS` governs, under both of its settings, and the values that
always fault. The fault and the operand fetch of every unlisted instruction (`faultsUnlisted_of_encode`,
`unlistedFetchFaults_of_encode`), a byte stored (`advance_poke`) and a pair written (`advance_setPair`). -/

namespace Sys2Proof.Proofs

open Sys2Proof.Machine Sys2Proof.Spec

variable {s : State} {i : Instr}

/-! ### The two faults of an unlisted instruction (R197, R70) -/

theorem faultsUnlisted_of_encode {op : Nat} {operands : List Byte} (hgroup : groupOf i = .unlisted)
    (henc : encode i = byte op :: operands) : FaultsUnlisted i op := by
  intro s hu
  obtain ⟨hop, -⟩ : i.opcode = byte op ∧ i.operandBytes = operands := List.cons.inj henc
  rw [exec_unlisted hgroup hu, hop]

/-- With `i8080` the opcode value does not fault as unimplemented (`unlistedOps_of_faults`), so an operand byte outside
the store is the fault of the step (`operandFetchOutOfBounds`). -/
theorem unlistedFetchFaults_of_encode {op lo hi : Byte} (hgroup : groupOf i = .unlisted)
    (hlen : Laws.EncodeLength.Statement i) (henc : encode i = [op, lo, hi]) : UnlistedFetchFaults op := by
  intro s hu hop hsize
  obtain ⟨rfl, -⟩ : i.opcode = op ∧ i.operandBytes = [lo, hi] := List.cons.inj henc
  apply operandFetchOutOfBounds
  · rw [hop, hu, ← faultsUnimplemented_iff]
    exact fun hf => nomatch unlistedOps_of_faults hgroup hf
  · rw [hop, hlen, henc]
    exact hsize

/-! ### The bytes -/

theorem encode_lda_sta (w : Word) : encode (.lda w) = 0x3A :: lowHigh w ∧ encode (.sta w) = 0x32 :: lowHigh w := by
  rw [lowHigh_eq_halves]
  exact ⟨rfl, rfl⟩

theorem encode_lhld_shld (w : Word) : encode (.lhld w) = 0x2A :: lowHigh w ∧ encode (.shld w) = 0x22 :: lowHigh w := by
  rw [lowHigh_eq_halves]
  exact ⟨rfl, rfl⟩

theorem encode_ldax_stax (p : IndirectPair) :
    encode (.ldax p) = [byte (0x0A + 16 * pairCode (ofIndirect p))] ∧
      encode (.stax p) = [byte (0x02 + 16 * pairCode (ofIndirect p))] := by
  cases p <;> exact ⟨rfl, rfl⟩

theorem encode_inx_dcx (p : Pair) :
    encode (.inx p) = [byte (0x03 + 16 * pairCode p)] ∧ encode (.dcx p) = [byte (0x0B + 16 * pairCode p)] := by
  cases p <;> exact ⟨rfl, rfl⟩

theorem encode_dad (p : Pair) : encode (.dad p) = [byte (0x09 + 16 * pairCode p)] := by cases p <;> rfl

theorem encode_rst (n : BitVec 3) : encode (.rst n) = [byte (0xC7 + 8 * n.toNat)] := by
  revert n
  decide

/-! ### Bytes and words moved between registers and memory (R198 to R203) -/

/-- A byte stored and the advance of an instruction of `len` bytes. -/
theorem advance_poke (s : State) (a : Nat) (v : Byte) (len : Nat) :
    ∃ t, advance (s.poke a v) len = .next t ∧ OnlyByte s t a v ∧ t = { stepped s len with mem := t.mem } := by
  refine ⟨_, rfl, onlyByte_of_mem rfl, ?_⟩
  rw [stepped_eq_jumpTo]
  rfl

theorem indirectAddr_eq (s : State) (p : IndirectPair) : s.indirectAddr p = ((s.pair (ofIndirect p)).toNat : Int) := by
  cases p <;> rfl

section
variable (hu : s.params.unlistedOps = .i8080)
include hu

theorem exec_lda (w : Word) : exec (.lda w) s = advance (s.setReg .a (s.peek w.toNat)) 3 := by
  rw [exec, execLda, unlisted_i8080 hu, memRead_word]

theorem exec_sta (w : Word) : exec (.sta w) s = advance (s.poke w.toNat s.regs.a) 3 := by
  rw [exec, execSta, unlisted_i8080 hu, memWrite_word]

theorem exec_ldax (p : IndirectPair) :
    exec (.ldax p) s = advance (s.setReg .a (s.peek (pairVal s (ofIndirect p)))) 1 := by
  rw [exec, execLdax, unlisted_i8080 hu, indirectAddr_eq, memRead_word, pair_toNat]

theorem exec_stax (p : IndirectPair) :
    exec (.stax p) s = advance (s.poke (pairVal s (ofIndirect p)) s.regs.a) 1 := by
  rw [exec, execStax, unlisted_i8080 hu, indirectAddr_eq, memWrite_word, pair_toNat]

/-- The first byte is at a word, so only the address of the second can lie outside the store. -/
theorem exec_lhld_inside {w : Word} (hw : w.toNat + 1 < s.params.memSize) :
    exec (.lhld w) s = advance ((s.setReg .l (s.peek w.toNat)).setReg .h (s.peek (w.toNat + 1))) 3 := by
  rw [exec, execLhld, unlisted_i8080 hu, memRead_word, ← Nat.cast_succ, memRead_in hw]

theorem exec_lhld_outside {w : Word} (hw : s.params.memSize ≤ w.toNat + 1) :
    exec (.lhld w) s = .fault (.outOfBoundsAccess (w.toNat + 1)) := by
  rw [exec, execLhld, unlisted_i8080 hu, memRead_word, ← Nat.cast_succ, memRead_above hw]

theorem exec_shld_inside {w : Word} (hw : w.toNat + 1 < s.params.memSize) :
    exec (.shld w) s = advance ((s.poke w.toNat s.regs.l).poke (w.toNat + 1) s.regs.h) 3 := by
  rw [exec, execShld, unlisted_i8080 hu, memWrite_word, ← Nat.cast_succ, memWrite_in (s := s.poke _ _) hw]

/-- The fault at the second address discards the byte written at the first. -/
theorem exec_shld_outside {w : Word} (hw : s.params.memSize ≤ w.toNat + 1) :
    exec (.shld w) s = .fault (.outOfBoundsAccess (w.toNat + 1)) := by
  rw [exec, execShld, unlisted_i8080 hu, memWrite_word, ← Nat.cast_succ, memWrite_above (s := s.poke _ _) hw]

end

/-! ### A pair written (R204 to R206) -/

theorem setPair_pair_same (s : State) (p : Pair) (w : Word) : (s.setPair p w).pair p = w := by
  cases p with
  | bc | de | hl => exact pair16_hi8_lo8 w
  | sp => rfl

theorem setPair_pair_other (s : State) {p q : Pair} (w : Word) (h : q ≠ p) : (s.setPair p w).pair q = s.pair q := by
  cases p <;> cases q
  case bc.bc | de.de | hl.hl | sp.sp => exact absurd rfl h
  all_goals rfl

theorem setPair_regs_a (s : State) (p : Pair) (w : Word) : (s.setPair p w).regs.a = s.regs.a := by cases p <;> rfl

/-- A pair written and the advance of an instruction of one byte. -/
theorem advance_setPair (s : State) (p : Pair) (w : Word) :
    ∃ t, advance (s.setPair p w) 1 = .next t ∧ pairVal t p = w.toNat ∧ (∀ q, q ≠ p → pairVal t q = pairVal s q) ∧
      t.regs.a = s.regs.a ∧ t = { stepped s 1 with regs := t.regs, sp := t.sp } := by
  refine ⟨_, rfl, ?_, fun q hq => ?_, setPair_regs_a s p w, ?_⟩
  · rw [← pair_toNat, jumpTo_pair, setPair_pair_same]
  · rw [← pair_toNat, ← pair_toNat, jumpTo_pair, setPair_pair_other s w hq]
  · rw [stepped_eq_jumpTo, setPair_after]
    cases p <;> rfl

theorem pair_add_one_toNat (s : State) (p : Pair) : (s.pair p + 1).toNat = (pairVal s p + 1) % 65536 := by
  rw [BitVec.toNat_add, pair_toNat]
  rfl

/-- Less 1 is plus 65535 modulo 65536. -/
theorem pair_sub_one_toNat (s : State) (p : Pair) : (s.pair p - 1).toNat = (pairVal s p + 65535) % 65536 := by
  rw [BitVec.toNat_sub, pair_toNat, Nat.add_comm]
  rfl

/-! ### The accumulator complemented (R210) -/

theorem xor_ones_eq_byte (a : Byte) : a ^^^ 0xFF = byte (255 - a.toNat) := by
  have hones : (0xFF : Byte) = BitVec.allOnes 8 := rfl
  apply BitVec.eq_of_toNat_eq
  rw [hones, BitVec.xor_allOnes, BitVec.toNat_not, byte, BitVec.toNat_ofNat]
  omega

/-! ### The statements -/

/-- Settles O35: each is one access at an address that is a word, which no store lacks (`exec_lda`, `exec_sta`,
`exec_ldax`, `exec_stax`). -/
theorem unlistedByteTransferResult : Obligations.UnlistedByteTransferResult := by
  refine ⟨fun w => ?_, fun p => ?_, fun s hu => ⟨fun w => ?_, fun p => ?_⟩, ?_, ?_⟩
  · obtain ⟨hlda, hsta⟩ := encode_lda_sta w
    exact ⟨hlda, hsta, faultsUnlisted_of_encode rfl hlda, faultsUnlisted_of_encode rfl hsta⟩
  · obtain ⟨hldax, hstax⟩ := encode_ldax_stax p
    exact ⟨hldax, hstax, faultsUnlisted_of_encode rfl hldax, faultsUnlisted_of_encode rfl hstax⟩
  · rw [exec_lda hu, exec_sta hu, advance_eq_stepped]
    exact ⟨rfl, advance_poke s _ _ 3⟩
  · rw [exec_ldax hu, exec_stax hu, advance_eq_stepped]
    exact ⟨rfl, advance_poke s _ _ 1⟩
  · exact unlistedFetchFaults_of_encode rfl (Laws.EncodeLength.lda 0) rfl
  · exact unlistedFetchFaults_of_encode rfl (Laws.EncodeLength.sta 0) rfl

/-- Settles O36: with `addr + 1` in the store both accesses pass (`exec_lhld_inside`, `exec_shld_inside`), else the
second one is the fault of the step. -/
theorem unlistedWordTransferResult : Obligations.UnlistedWordTransferResult := by
  refine ⟨fun w => ?_, fun w s hu => ⟨fun hw => ⟨?_, ?_⟩, fun hw => ?_⟩, ?_, ?_⟩
  · obtain ⟨hlhld, hshld⟩ := encode_lhld_shld w
    exact ⟨hlhld, hshld, faultsUnlisted_of_encode rfl hlhld, faultsUnlisted_of_encode rfl hshld⟩
  · rw [exec_lhld_inside hu hw, advance_eq_stepped]
    rfl
  · refine ⟨_, exec_shld_inside hu hw, onlyTwoBytes_of_mem (Nat.ne_add_one _) rfl, ?_⟩
    rw [stepped_eq_jumpTo]
    rfl
  · exact ⟨exec_lhld_outside hu hw, exec_shld_outside hu hw⟩
  · exact unlistedFetchFaults_of_encode rfl (Laws.EncodeLength.lhld 0) rfl
  · exact unlistedFetchFaults_of_encode rfl (Laws.EncodeLength.shld 0) rfl

/-- Settles O37: the pair is written with its value plus or minus 1 (`advance_setPair`). -/
theorem unlistedPairStepResult : Obligations.UnlistedPairStepResult := by
  refine ⟨fun p => ?_, fun p s hu => ⟨?_, ?_⟩⟩
  · obtain ⟨hinx, hdcx⟩ := encode_inx_dcx p
    exact ⟨hinx, hdcx, faultsUnlisted_of_encode rfl hinx, faultsUnlisted_of_encode rfl hdcx⟩
  · rw [exec, execInx, unlisted_i8080 hu, ← pair_add_one_toNat]
    exact advance_setPair s p _
  · rw [exec, execDcx, unlisted_i8080 hu, ← pair_sub_one_toNat]
    exact advance_setPair s p _

/-- Settles O38: `HL` is written with the sum, which a word reduces modulo 65536 (`setPair_pair_same`). -/
theorem unlistedDadResult : Obligations.UnlistedDadResult := by
  refine ⟨fun p => ⟨encode_dad p, faultsUnlisted_of_encode rfl (encode_dad p)⟩, fun p s hu => ?_⟩
  rw [exec, execDad, unlisted_i8080 hu, pair_toNat, pair_toNat]
  refine ⟨_, rfl, ?_, ?_⟩
  · rw [← pair_toNat, jumpTo_pair, setPair_pair_same, BitVec.toNat_ofNat]
  · rw [stepped_eq_jumpTo]
    rfl

/-- Settles O40: with `i8080` it is a push of the return address and a transfer, as a call is (`calls_of_exec_eq`). -/
theorem unlistedRstResult : Obligations.UnlistedRstResult := fun n =>
  ⟨encode_rst n, faultsUnlisted_of_encode rfl (encode_rst n), fun _ hu => calls_of_exec_eq (unlisted_i8080 hu)⟩

/-- Settles O39: each writes `A` or the carry and advances; the complement of a byte is 255 less its value
(`xor_ones_eq_byte`). -/
theorem unlistedComplementCarryResult : Obligations.UnlistedComplementCarryResult := by
  refine ⟨rfl, rfl, rfl, faultsUnlisted_of_encode rfl rfl, faultsUnlisted_of_encode rfl rfl,
    faultsUnlisted_of_encode rfl rfl, fun s hu => ⟨?_, ?_, ?_⟩⟩
  · rw [exec, execCma, unlisted_i8080 hu, xor_ones_eq_byte, advance_eq_stepped]
    rfl
  · rw [exec, execStc, unlisted_i8080 hu, advance_eq_stepped]
    rfl
  · rw [exec, execCmc, unlisted_i8080 hu, advance_eq_stepped, Bool.decide_eq_false]
    rfl

/-- Settles O41: these instructions raise the fault themselves (`exec_faulting`), with the opcode bytes of R209 and
R214. -/
theorem alwaysUnimplemented : Obligations.AlwaysUnimplemented := fun _ =>
  ⟨exec_faulting rfl, fun _ => exec_faulting rfl, exec_faulting rfl, fun _ => exec_faulting rfl,
    fun _ => exec_faulting rfl, fun _ => exec_faulting rfl⟩

end Sys2Proof.Proofs
end

section
/-! 60_exceptions.md R226 to R228: with which faults an instruction can stop. The accesses outside the store
(`AccessFaults`) are all of them once the instruction is not one that faults as unimplemented (`exec_fault_iff`); what a
step can do is said once more on top of it (`step_cases`). -/

namespace Sys2Proof.Proofs

open Sys2Proof.Machine Sys2Proof.Spec

variable {s t : State} {i : Instr} {f : Fault} {r : Refusal}

/-! ### With which faults the shared operations stop -/

theorem push16_fault {hi lo : Byte} {k : State → Result} :
    push16 s hi lo k = .fault f ↔
      (s.sp.toNat < 2 ∧ f = .outOfBoundsAccess (-1)) ∨ (2 ≤ s.sp.toNat ∧ k (pushed s hi lo) = .fault f) := by
  rw [push16_eq, ← Nat.not_lt, eq_comm (a := f)]
  split <;> simp_all [raise, pushed]

theorem pop16_fault {k : Byte → Byte → State → Result} :
    pop16 s k = .fault f ↔
      (s.params.memSize ≤ s.sp.toNat + 1 ∧ f = .outOfBoundsAccess (s.sp.toNat + 1)) ∨
      (s.sp.toNat + 1 < s.params.memSize ∧
        k (s.peek (s.sp.toNat + 1)) (s.peek s.sp.toNat) (s.setSp (s.sp + 2)) = .fault f) := by
  rw [pop16_eq, ← Nat.not_lt, eq_comm (a := f)]
  split <;> simp_all [raise]

/-- The address after a word, read. -/
theorem memRead_succ_fault {w : Word} {k : Byte → Result} :
    memRead s ((w.toNat : Int) + 1) k = .fault f ↔
      (s.params.memSize ≤ w.toNat + 1 ∧ f = .outOfBoundsAccess (w.toNat + 1)) ∨
      (w.toNat + 1 < s.params.memSize ∧ k (s.peek (w.toNat + 1)) = .fault f) := by
  obtain h | h := Nat.lt_or_ge (w.toNat + 1) s.params.memSize
  · rw [← Nat.cast_succ, memRead_in h]
    simp [h]
  · rw [← Nat.cast_succ, memRead_above h, eq_comm (a := f)]
    simp [h, Nat.not_lt.mpr h]

/-- The address after a word, written. -/
theorem memWrite_succ_fault {w : Word} {v : Byte} {k : State → Result} :
    memWrite s ((w.toNat : Int) + 1) v k = .fault f ↔
      (s.params.memSize ≤ w.toNat + 1 ∧ f = .outOfBoundsAccess (w.toNat + 1)) ∨
      (w.toNat + 1 < s.params.memSize ∧ k (s.poke (w.toNat + 1) v) = .fault f) := by
  obtain h | h := Nat.lt_or_ge (w.toNat + 1) s.params.memSize
  · rw [← Nat.cast_succ, memWrite_in h]
    simp [h]
  · rw [← Nat.cast_succ, memWrite_above h, eq_comm (a := f)]
    simp [h, Nat.not_lt.mpr h]

theorem jumpIf_fault {c : Bool} {w : Word} : jumpIf c w s ≠ .fault f := by
  cases c <;> simp [jumpIf]

theorem callTo_fault {w : Word} :
    callTo w s = .fault f ↔ s.sp.toNat < 2 ∧ f = .outOfBoundsAccess (-1) := by
  simp [callTo, push16_fault]

theorem callIf_fault {c : Bool} {w : Word} :
    callIf c w s = .fault f ↔ c = true ∧ s.sp.toNat < 2 ∧ f = .outOfBoundsAccess (-1) := by
  cases c <;> simp [callIf, callTo_fault]

theorem returnNow_fault :
    returnNow s = .fault f ↔ s.params.memSize ≤ s.sp.toNat + 1 ∧ f = .outOfBoundsAccess (s.sp.toNat + 1) := by
  simp [returnNow, pop16_fault]

theorem returnIf_fault {c : Bool} :
    returnIf c s = .fault f ↔
      c = true ∧ s.params.memSize ≤ s.sp.toNat + 1 ∧ f = .outOfBoundsAccess (s.sp.toNat + 1) := by
  cases c <;> simp [returnIf, returnNow_fault]

/-! ### With which faults an instruction stops -/

/-- The fault of a data access outside the store (R228): below address 0 in a push, at the second byte of a pop, of
`XTHL` and of a word in memory. -/
def AccessFaults (s : State) (i : Instr) (f : Fault) : Prop :=
  (pushes s i = true ∧ s.sp.toNat < 2 ∧ f = .outOfBoundsAccess (-1)) ∨
  ((pops s i = true ∨ i = .xthl) ∧ s.params.memSize ≤ s.sp.toNat + 1 ∧ f = .outOfBoundsAccess (s.sp.toNat + 1)) ∨
  (∃ w : Word, (i = .lhld w ∨ i = .shld w) ∧ s.params.memSize ≤ w.toNat + 1 ∧ f = .outOfBoundsAccess (w.toNat + 1))

/-- The accesses at words cannot fail, so each family is left with the one fault that its addresses allow, or none. -/
theorem exec_fault_iff (hfaulting : groupOf i ≠ .faulting)
    (hunlisted : groupOf i = .unlisted → s.params.unlistedOps = .i8080) :
    exec i s = .fault f ↔ AccessFaults s i f := by
  unfold AccessFaults pushes pops
  cases i with
  | daa | jmpAlias _ | retAlias | callAlias _ _ => exact absurd rfl hfaulting
  | mvi _ _ | mov _ _ | add _ | adc _ | sub _ | sbb _ | ana _ | xra _ | ora _ | cmp _ | inr _ | dcr _ =>
    simp [exec, execMvi, execMov, execAdd, execAdc, execSub, execSbb, execAna, execXra, execOra, execCmp, execInr,
      execDcr, src8_eq_operandVal, dst8_eq_writeOperand, flow]
  | lxi _ _ | adi _ | aci _ | sui _ | sbi _ | ani _ | xri _ | ori _ | cpi _ | rlc | rrc | ral | rar | xchg | sphl
  | inPort _ | outPort _ | ei | di | hlt | nop | nopAlias _ | jmp _ | pchl =>
    refine ⟨nofun, ?_⟩
    simp [flow]
  | jnz _ | jz _ | jnc _ | jc _ | jpo _ | jpe _ | jp _ | jm _ =>
    refine ⟨fun h => absurd h jumpIf_fault, ?_⟩
    simp [flow]
  | push _ | pushPsw => simp [exec_push, exec_pushPsw, push16_fault, flow]
  | pop _ | popPsw => simp [exec_pop, exec_popPsw, pop16_fault, flow]
  | call _ => simp [exec_call, push16_fault, flow, holds]
  | cnz _ | cz _ | cnc _ | cc _ | cpo _ | cpe _ | cp _ | cm _ =>
    refine callIf_fault.trans ?_
    simp [condHolds_eq_taken, flow, holds]
  | ret => simp [exec_ret, pop16_fault, flow, holds]
  | rnz | rz | rnc | rc | rpo | rpe | rp | rm =>
    refine returnIf_fault.trans ?_
    simp [condHolds_eq_taken, flow, holds]
  | xthl => simp [exec, execXthl, memRead_succ_fault, memWrite_succ_fault, flow]
  | lda _ | sta _ | ldax _ | stax _ =>
    simp [exec_lda, exec_sta, exec_ldax, exec_stax, hunlisted rfl, flow]
  | lhld _ | shld _ =>
    simp [exec, execLhld, execShld, unlisted_i8080 (hunlisted rfl), memRead_succ_fault, memWrite_succ_fault, flow]
  | inx _ | dcx _ | dad _ | cma | stc | cmc =>
    refine ⟨fun h => absurd ((unlisted_i8080 (hunlisted rfl)).symm.trans h) advance_fault, ?_⟩
    simp [flow]
  | rst _ =>
    simp [exec, execRst, unlisted_i8080 (hunlisted rfl), push16_fault, flow, holds]

theorem not_accessFaults_of_faulting (h : groupOf i = .faulting) : ¬ AccessFaults s i f := by
  cases i with
  | daa | jmpAlias _ | retAlias | callAlias _ _ => simp [AccessFaults, pushes, pops, flow]
  | _ => cases h

/-! ### No instruction is refused -/

theorem push16_refused {hi lo : Byte} {k : State → Result} :
    push16 s hi lo k = .refused r ↔ 2 ≤ s.sp.toNat ∧ k (pushed s hi lo) = .refused r := by
  rw [push16_eq, ← Nat.not_lt]
  split <;> simp_all [raise, pushed]

theorem pop16_refused {k : Byte → Byte → State → Result} :
    pop16 s k = .refused r ↔ s.sp.toNat + 1 < s.params.memSize ∧
      k (s.peek (s.sp.toNat + 1)) (s.peek s.sp.toNat) (s.setSp (s.sp + 2)) = .refused r := by
  rw [pop16_eq]
  split <;> simp_all [raise]

theorem unlisted_refused {action : Result} :
    unlisted s i action = .refused r ↔ s.params.unlistedOps = .i8080 ∧ action = .refused r := by
  cases h : s.params.unlistedOps <;> simp [h]

theorem jumpIf_refused {c : Bool} {w : Word} : jumpIf c w s ≠ .refused r := by
  cases c <;> simp [jumpIf]

theorem callIf_refused {c : Bool} {w : Word} : callIf c w s ≠ .refused r := by
  cases c <;> simp [callIf, callTo, push16_refused]

theorem returnIf_refused {c : Bool} : returnIf c s ≠ .refused r := by
  cases c <;> simp [returnIf, returnNow, pop16_refused]

/-- Every access hands on to the advance or the transfer that ends the instruction, and those answer a next state. -/
theorem exec_ne_refused (i : Instr) (s : State) (r : Refusal) : exec i s ≠ .refused r := by
  cases i with
  | mvi _ _ | mov _ _ | add _ | adc _ | sub _ | sbb _ | ana _ | xra _ | ora _ | cmp _ | inr _ | dcr _ =>
    simp [exec, execMvi, execMov, execAdd, execAdc, execSub, execSbb, execAna, execXra, execOra, execCmp, execInr,
      execDcr, src8_eq_operandVal, dst8_eq_writeOperand]
  | lxi _ _ | adi _ | aci _ | sui _ | sbi _ | ani _ | xri _ | ori _ | cpi _ | rlc | rrc | ral | rar | xchg | sphl
  | inPort _ | outPort _ | ei | di | hlt | nop | nopAlias _ | jmp _ | pchl => nofun
  | daa | jmpAlias _ | retAlias | callAlias _ _ => nofun
  | jnz _ | jz _ | jnc _ | jc _ | jpo _ | jpe _ | jp _ | jm _ => exact jumpIf_refused
  | push _ | pushPsw => simp [exec_push, exec_pushPsw, push16_refused]
  | pop _ | popPsw => simp [exec_pop, exec_popPsw, pop16_refused]
  | call _ => simp [exec_call, push16_refused]
  | cnz _ | cz _ | cnc _ | cc _ | cpo _ | cpe _ | cp _ | cm _ => exact callIf_refused
  | ret => simp [exec_ret, pop16_refused]
  | rnz | rz | rnc | rc | rpo | rpe | rp | rm => exact returnIf_refused
  | xthl => simp [exec, execXthl, memRead_refused, memWrite_refused]
  | lda _ | sta _ | lhld _ | shld _ | ldax _ | stax _ =>
    simp [exec, execLda, execSta, execLhld, execShld, execLdax, execStax, unlisted_refused, memRead_refused,
      memWrite_refused]
  | inx _ | dcx _ | dad _ | cma | stc | cmc => exact fun h => advance_refused (unlisted_refused.mp h).2
  | rst _ => simp [exec, execRst, unlisted_refused, push16_refused]

/-! ### A step (R70, R71, R233) -/

/-- What a step can do: the fetch stops at the opcode byte, an instruction with that opcode byte runs, or an operand byte
lies outside the store. -/
theorem step_cases (s : State) :
    (faultsUnimplemented s.params.unlistedOps (s.peek s.pc.toNat) = true ∧
      step s = .fault (.unimplementedOpcode (s.peek s.pc.toNat) s.pc)) ∨
    (faultsUnimplemented s.params.unlistedOps (s.peek s.pc.toNat) = false ∧
      ((∃ i, i.wellFormed = true ∧ i.opcode = s.peek s.pc.toNat ∧ step s = exec i s) ∨
        step s = .fault (.outOfBoundsAccess s.params.memSize))) := by
  cases hop : faultsUnimplemented s.params.unlistedOps (s.peek s.pc.toNat) with
  | true => exact .inl ⟨rfl, fetch_unimplemented hop⟩
  | false =>
    obtain hrun | ⟨-, hfault⟩ := fetch_runs (run := fun i => exec i s) hop
    · exact .inr ⟨rfl, .inl hrun⟩
    · exact .inr ⟨rfl, .inr hfault⟩

/-- Well-formedness shuts out the form that would have the opcode byte of `CALL` itself (R65, R214). -/
theorem faultsUnimplemented_of_faulting (hwf : i.wellFormed = true) (h : groupOf i = .faulting) (u : UnlistedOps) :
    faultsUnimplemented u i.opcode = true := by
  cases i with
  | daa | jmpAlias _ | retAlias => rfl
  | callAlias x _ =>
    match x with
    | 0#2 => cases hwf
    | 1#2 | 2#2 | 3#2 => rfl
  | _ => cases h

theorem faultsUnimplemented_of_unlisted (h : groupOf i = .unlisted) : faultsUnimplemented .fault i.opcode = true := by
  cases i with
  | ldax p | stax p | inx p | dcx p | dad p => cases p <;> rfl
  | rst n =>
    match n with
    | 0#3 | 1#3 | 2#3 | 3#3 | 4#3 | 5#3 | 6#3 | 7#3 => rfl
  | lda _ | sta _ | lhld _ | shld _ | cma | stc | cmc => rfl
  | _ => cases h

/-- An instruction whose opcode byte the fetch lets pass stops only with an access outside the store. -/
theorem exec_fault_of_fetched (hwf : i.wellFormed = true)
    (hop : faultsUnimplemented s.params.unlistedOps i.opcode = false) : exec i s = .fault f ↔ AccessFaults s i f := by
  refine exec_fault_iff (fun hg => ?_) fun hg => ?_
  · rw [faultsUnimplemented_of_faulting hwf hg] at hop
    cases hop
  · cases hu : s.params.unlistedOps with
    | i8080 => rfl
    | fault =>
      rw [hu, faultsUnimplemented_of_unlisted hg] at hop
      cases hop

theorem not_accessFaults_unimplemented {op : Byte} {a : Word} : ¬ AccessFaults s i (.unimplementedOpcode op a) := by
  simp [AccessFaults]

theorem accessFaults_outOfBounds_iff {a : Int} :
    AccessFaults s i (.outOfBoundsAccess a) ↔
      (pushes s i = true ∧ s.sp.toNat < 2 ∧ a = -1) ∨
      ((pops s i = true ∨ i = .xthl) ∧ s.params.memSize ≤ s.sp.toNat + 1 ∧ a = s.sp.toNat + 1) ∨
      (∃ w : Word, (i = .lhld w ∨ i = .shld w) ∧ s.params.memSize ≤ w.toNat + 1 ∧ a = w.toNat + 1) := by
  simp only [AccessFaults, Fault.outOfBoundsAccess.injEq]

/-- A second byte outside a store of 65536 bytes is at its end, because the first is at a word. -/
theorem succ_eq_of_memSize_le {w : Word} {size : Nat} (hsize : size = 65536) (hw : size ≤ w.toNat + 1) :
    (w.toNat : Int) + 1 = 65536 := by
  have hlt := w.isLt
  omega

/-! ### The statements -/

/-- Settles O9: an instruction that faults as unimplemented makes no access (`exec_unlisted`, `exec_faulting`), any other
stops with the faults of `AccessFaults` (`exec_fault_iff`). -/
theorem dataOutOfBoundsExactly : Obligations.DataOutOfBoundsExactly := by
  intro i s a
  rw [← accessFaults_outOfBounds_iff]
  by_cases hg : groupOf i = .faulting
  · rw [exec_faulting hg]
    exact ⟨nofun, fun ⟨_, h⟩ => absurd h (not_accessFaults_of_faulting hg)⟩
  · by_cases hu : groupOf i = .unlisted → s.params.unlistedOps = .i8080
    · rw [exec_fault_iff hg hu]
      exact (and_iff_right hu).symm
    · obtain ⟨hgroup, hops⟩ := Classical.not_imp.mp hu
      have hfault : s.params.unlistedOps = .fault := by
        cases h : s.params.unlistedOps with
        | fault => rfl
        | i8080 => exact absurd h hops
      rw [exec_unlisted hgroup hfault]
      exact ⟨nofun, fun ⟨h, _⟩ => absurd h hu⟩

/-- Settles O11: no instruction is refused (`exec_ne_refused`), and a step is an instruction or a fault
(`step_cases`). -/
theorem nothingIsRefused : Obligations.NothingIsRefused := by
  refine ⟨exec_ne_refused, fun s r => ?_⟩
  obtain ⟨-, hs⟩ | ⟨-, ⟨i, -, -, hs⟩ | hs⟩ := step_cases s
  · rw [hs]
    nofun
  · rw [hs]
    exact exec_ne_refused i s r
  · rw [hs]
    nofun

/-- Settles O7: the fetch raises the fault on these opcode values (`faultsUnimplemented_iff`); past it there are only
accesses outside the store (`exec_fault_of_fetched`). -/
theorem stepUnimplementedExactly : Obligations.StepUnimplementedExactly := by
  intro s op a
  obtain ⟨hop, hs⟩ | ⟨hop, hs⟩ := step_cases s
  · have hmem := (faultsUnimplemented_iff _ _).mp hop
    rw [hs]
    constructor
    · rintro ⟨⟩
      exact ⟨rfl, rfl, hmem⟩
    · rintro ⟨rfl, rfl, -⟩
      rfl
  · have hnone : step s ≠ .fault (.unimplementedOpcode op a) := by
      obtain ⟨i, hwf, hi, hs⟩ | hs := hs
      · rw [hs, ne_eq, exec_fault_of_fetched hwf (hi ▸ hop)]
        exact not_accessFaults_unimplemented
      · rw [hs]
        nofun
    refine ⟨fun h => absurd h hnone, ?_⟩
    rintro ⟨rfl, -, hmem⟩
    rw [(faultsUnimplemented_iff _ _).mpr hmem] at hop
    cases hop

/-- Settles O10: by O9 the address is -1 or the successor of a word outside the store, and the operand fetch stops at the
end of the store (`step_cases`). -/
theorem defaultOutOfBoundsAddresses : Obligations.DefaultOutOfBoundsAddresses := by
  intro s a hextra h
  have hsize : s.params.memSize = 65536 := by rw [Params.memSize, hextra]
  obtain ⟨-, hs⟩ | ⟨-, ⟨i, -, -, hs⟩ | hs⟩ := step_cases s
  · rw [hs] at h
    cases h
  · obtain ⟨-, ⟨-, -, rfl⟩ | ⟨-, hsp, rfl⟩ | ⟨w, -, hw, rfl⟩⟩ := (dataOutOfBoundsExactly i s a).mp (hs.symm.trans h)
    · exact .inl rfl
    · exact .inr (succ_eq_of_memSize_le hsize hsp)
    · exact .inr (succ_eq_of_memSize_le hsize hw)
  · rw [hs, hsize] at h
    cases h
    exact .inr rfl

/-- Settles O52: the result is the one of `exec_next`, which only `HLT` makes `Halted`. -/
theorem onlyHltHalts : Obligations.OnlyHltHalts := by
  intro i s t h
  have hresult : t.result = resultOf i := congrArg State.result (exec_next h)
  rw [hresult]
  cases i with
  | hlt => exact iff_of_true rfl rfl
  | _ => exact iff_of_false nofun nofun

end Sys2Proof.Proofs
end

section
/-! 48_unlisted.md R196: an instruction that is not unlisted does not read `UNLISTED_OPS`. Neither the state it leaves
(`completed_withOps`) nor the faults it stops with (`exec_fault_withOps_iff`) depend on it. -/

namespace Sys2Proof.Proofs

open Sys2Proof.Machine Sys2Proof.Spec

variable {i : Instr} {u : UnlistedOps} {s : State} {f : Fault}

theorem writeOperand_withOps (u : UnlistedOps) (s : State) (o : Operand) (v : Byte) :
    writeOperand (withOps u s) o v = withOps u (writeOperand s o v) := by cases o <;> rfl

theorem setPair_withOps (u : UnlistedOps) (s : State) (p : Pair) (w : Word) :
    (withOps u s).setPair p w = withOps u (s.setPair p w) := by cases p <;> rfl

theorem callEffect_withOps (u : UnlistedOps) (s : State) (c : Bool) :
    callEffect (withOps u s) c = withOps u (callEffect s c) := by cases c <;> rfl

theorem returnEffect_withOps (u : UnlistedOps) (s : State) (c : Bool) :
    returnEffect (withOps u s) c = withOps u (returnEffect s c) := by cases c <;> rfl

theorem dataEffect_withOps (u : UnlistedOps) (s : State) (i : Instr) :
    dataEffect (withOps u s) i = withOps u (dataEffect s i) := by
  cases i with
  | mvi o _ | mov o _ => exact writeOperand_withOps u s o _
  | inr o | dcr o => exact writeOperand_withOps u (flagsIncDec s _) o _
  | lxi p _ | inx p | dcx p => exact setPair_withOps u s p _
  | pop p => cases p <;> rfl
  | call _ | cnz _ | cz _ | cnc _ | cc _ | cpo _ | cpe _ | cp _ | cm _ =>
    exact callEffect_withOps u s _
  | ret | rnz | rz | rnc | rc | rpo | rpe | rp | rm => exact returnEffect_withOps u s _
  | _ => rfl

theorem completed_withOps (u : UnlistedOps) (s : State) (i : Instr) :
    completed (withOps u s) i = withOps u (completed s i) := by
  rw [completed, dataEffect_withOps]
  rfl

/-- The faults of an instruction read the size of the store, `sp` and the flags. -/
theorem exec_fault_withOps_iff (h : groupOf i ≠ .unlisted) :
    exec i (withOps u s) = .fault f ↔ exec i s = .fault f := by
  by_cases hg : groupOf i = .faulting
  · rw [exec_faulting hg, exec_faulting hg]
    rfl
  · rw [exec_fault_iff hg fun hu => absurd hu h, exec_fault_iff hg fun hu => absurd hu h]
    rfl

/-- Settles O42: the instruction stops with the same faults under both settings (`exec_fault_withOps_iff`), and where it
does not stop it leaves the same state (`completed_withOps`). -/
theorem listedIgnoresUnlistedOps : Obligations.ListedIgnoresUnlistedOps := by
  intro i u s h
  cases hs : exec i s with
  | fault f => exact (exec_fault_withOps_iff h).mpr hs
  | refused r => exact absurd hs (exec_ne_refused i s r)
  | next t =>
    cases hs' : exec i (withOps u s) with
    | next t' => rw [exec_next hs, exec_next hs', completed_withOps, mapResult]
    | fault f => rw [(exec_fault_withOps_iff h).mp hs'] at hs; cases hs
    | refused r => exact absurd hs' (exec_ne_refused i _ r)

end Sys2Proof.Proofs
end

section
/-! 60_exceptions.md R229, R232; 70_reset_and_hazards.md R259: how a run ends. A run passes over the steps that return
`Continue` (`runFrom_of_continues`) and ends at the first other step or with its budget used up (`runFrom_eq_iff`). -/

namespace Sys2Proof.Proofs

open Sys2Proof.Machine Sys2Proof.Spec

variable {s t u : State} {e : RunEnd} {k n fuel : Nat}

/-! ### Several steps, the first or the last one taken off -/

theorem coreRun_zero : Host.Core.run core 0 s = .next t ↔ s = t :=
  ⟨Host.Outcome.next.inj, congrArg Host.Outcome.next⟩

theorem coreRun_succ :
    Host.Core.run core (k + 1) s = .next t ↔ ∃ u : State, step s = .next u ∧ Host.Core.run core k u = .next t := by
  cases hs : step s with
  | next u | fault f | refused r =>
    have hcore : core.step s = _ := hs
    simp [Host.Core.run, hcore]

theorem coreRun_succ_last :
    Host.Core.run core (k + 1) s = .next t ↔ ∃ u : State, Host.Core.run core k s = .next u ∧ step u = .next t := by
  induction k generalizing s with
  | zero => simp [coreRun_succ, coreRun_zero]
  | succ k ih =>
    calc Host.Core.run core (k + 2) s = .next t
      _ ↔ ∃ v : State, step s = .next v ∧ ∃ u : State, Host.Core.run core k v = .next u ∧ step u = .next t := by
        simp only [coreRun_succ (k := k + 1), ih]
      _ ↔ ∃ u : State, Host.Core.run core (k + 1) s = .next u ∧ step u = .next t := by
        simp only [coreRun_succ]
        tauto

/-! ### Steps that returned `Continue` -/

/-- Each of the first `k` steps returned `Continue`, and they led to `t`. -/
def Continues (s : State) (k : Nat) (t : State) : Prop := AllContinued s k ∧ Host.Core.run core k s = .next t

theorem continues_zero : Continues s 0 t ↔ s = t :=
  (and_iff_right fun _ hpos hle => absurd hle (Nat.not_le.mpr hpos)).trans coreRun_zero

theorem allContinued_succ :
    AllContinued s (k + 1) ↔ ∃ u, step s = .next u ∧ u.result = .continued ∧ AllContinued u k := by
  constructor
  · intro h
    obtain ⟨u, hu, hr⟩ := h 1 one_pos (by omega)
    obtain ⟨u', hstep, hzero⟩ := coreRun_succ.mp hu
    obtain rfl := coreRun_zero.mp hzero
    refine ⟨u', hstep, hr, fun j _ hle => ?_⟩
    obtain ⟨v, hv, hr'⟩ := h (j + 1) (by omega) (by omega)
    obtain ⟨u, hstep', hrun⟩ := coreRun_succ.mp hv
    cases hstep.symm.trans hstep'
    exact ⟨v, hrun, hr'⟩
  · rintro ⟨u, hstep, hr, h⟩ j hpos hle
    match j with
    | 1 => exact ⟨u, coreRun_succ.mpr ⟨u, hstep, rfl⟩, hr⟩
    | j + 2 =>
      obtain ⟨v, hrun, hr'⟩ := h (j + 1) (by omega) (by omega)
      exact ⟨v, coreRun_succ.mpr ⟨u, hstep, hrun⟩, hr'⟩

theorem continues_succ :
    Continues s (k + 1) t ↔ ∃ u, step s = .next u ∧ u.result = .continued ∧ Continues u k t := by
  rw [Continues, allContinued_succ, coreRun_succ]
  constructor
  · rintro ⟨⟨u, hu, hr, hcont⟩, u', hu', hrun⟩
    cases hu.symm.trans hu'
    exact ⟨u, hu, hr, hcont, hrun⟩
  · rintro ⟨u, hu, hr, hcont, hrun⟩
    exact ⟨⟨u, hu, hr, hcont⟩, u, hu, hrun⟩

/-! ### The end of a run -/

theorem runFrom_of_continued (hs : step s = .next u) (hr : u.result = .continued) (n fuel : Nat) :
    runFrom n (fuel + 1) s = runFrom (n + 1) fuel u := by
  simp only [runFrom, hs, hr]

theorem runFrom_of_continues (h : Continues s k u) (n fuel : Nat) :
    runFrom n (k + fuel) s = runFrom (n + k) fuel u := by
  induction k generalizing s n with
  | zero => rw [continues_zero.mp h, Nat.zero_add, Nat.add_zero]
  | succ k ih =>
    obtain ⟨v, hv, hr, hcont⟩ := continues_succ.mp h
    have hfuel : k + 1 + fuel = (k + fuel) + 1 := by omega
    have hcount : n + (k + 1) = n + 1 + k := by omega
    rw [hfuel, hcount, runFrom_of_continued hv hr, ih hcont]

/-- The ends of a run of at most `fuel` steps from `s` that counts from `n` (R259). -/
inductive Ends (s : State) (fuel n : Nat) : RunEnd → Prop where
  | outOfFuel {m : Nat} {t : State} (hm : m = n + fuel) (h : Continues s fuel t) : Ends s fuel n (.outOfFuel t m)
  | faulted {k m : Nat} {t : State} {f : Fault} (hm : m = n + k) (hk : k < fuel) (h : Continues s k t)
      (hf : step t = .fault f) : Ends s fuel n (.faulted f t m)
  | refused {k m : Nat} {t : State} {r : Refusal} (hm : m = n + k) (hk : k < fuel) (h : Continues s k t)
      (hr : step t = .refused r) : Ends s fuel n (.refused r t m)
  | halted {k m : Nat} {u t : State} (hm : m = n + (k + 1)) (hk : k < fuel) (h : Continues s k u)
      (ht : step u = .next t) (hr : t.result = .halted) : Ends s fuel n (.halted t m)

/-- A step that returned `Continue` put before a run. -/
theorem Ends.of_continued (hs : step s = .next u) (hr : u.result = .continued) (h : Ends u fuel (n + 1) e) :
    Ends s (fuel + 1) n e := by
  have hcont {k : Nat} {t : State} (h : Continues u k t) : Continues s (k + 1) t := continues_succ.mpr ⟨u, hs, hr, h⟩
  cases h with
  | outOfFuel hm h => exact .outOfFuel (by omega) (hcont h)
  | faulted hm hk h hf => exact .faulted (by omega) (Nat.succ_lt_succ hk) (hcont h) hf
  | refused hm hk h hr => exact .refused (by omega) (Nat.succ_lt_succ hk) (hcont h) hr
  | halted hm hk h ht hr => exact .halted (by omega) (Nat.succ_lt_succ hk) (hcont h) ht hr

theorem ends_runFrom (n fuel : Nat) (s : State) : Ends s fuel n (runFrom n fuel s) := by
  induction fuel generalizing n s with
  | zero => exact .outOfFuel rfl (continues_zero.mpr rfl)
  | succ fuel ih =>
    cases hs : step s with
    | fault f =>
      simp only [runFrom, hs]
      exact .faulted rfl fuel.succ_pos (continues_zero.mpr rfl) hs
    | refused r =>
      simp only [runFrom, hs]
      exact .refused rfl fuel.succ_pos (continues_zero.mpr rfl) hs
    | next u =>
      cases hr : u.result with
      | continued =>
        rw [runFrom_of_continued hs hr]
        exact .of_continued hs hr (ih (n + 1) u)
      | halted =>
        simp only [runFrom, hs, hr]
        exact .halted rfl fuel.succ_pos (continues_zero.mpr rfl) hs hr

/-- The run that follows `k` steps that returned `Continue` still has a step to make. -/
theorem runFrom_of_lt (hk : k < fuel) (h : Continues s k u) (n : Nat) :
    ∃ rest, runFrom n fuel s = runFrom (n + k) (rest + 1) u := by
  obtain ⟨rest, rfl⟩ := Nat.exists_eq_add_of_lt hk
  exact ⟨rest, runFrom_of_continues h n (rest + 1)⟩

theorem runFrom_of_ends (h : Ends s fuel n e) : runFrom n fuel s = e := by
  cases h with
  | outOfFuel hm h => exact hm ▸ runFrom_of_continues h n 0
  | faulted hm hk h hf =>
    obtain ⟨rest, hrun⟩ := runFrom_of_lt hk h n
    rw [hrun, runFrom, hf, hm]
  | refused hm hk h hr =>
    obtain ⟨rest, hrun⟩ := runFrom_of_lt hk h n
    rw [hrun, runFrom, hr, hm]
  | halted hm hk h ht hr =>
    obtain ⟨rest, hrun⟩ := runFrom_of_lt hk h n
    simp only [hrun, runFrom, ht, hr, hm, Nat.add_assoc]

theorem run_eq_iff : run fuel s = e ↔ Ends s fuel 0 e :=
  ⟨fun h => h ▸ ends_runFrom 0 fuel s, runFrom_of_ends⟩

/-! ### The statement -/

/-- Settles O53: the ends of a run (`run_eq_iff`), the last step of a halted one counted with the steps before it
(`coreRun_succ_last`). -/
theorem runEndStates : Obligations.RunEndStates := by
  intro fuel s t k
  refine ⟨fun f => run_eq_iff.trans ⟨?_, ?_⟩, run_eq_iff.trans ⟨?_, ?_⟩, run_eq_iff.trans ⟨?_, ?_⟩⟩
  · rintro (_ | ⟨hm, hk, ⟨hcont, hrun⟩, hf⟩)
    rw [hm, Nat.zero_add]
    exact ⟨hk, hcont, hrun, hf⟩
  · rintro ⟨hk, hcont, hrun, hf⟩
    exact .faulted (Nat.zero_add k).symm hk ⟨hcont, hrun⟩ hf
  · rintro (_ | _ | _ | ⟨hm, hk, ⟨hcont, hrun⟩, ht, hr⟩)
    obtain rfl := Nat.succ.inj (hm.trans (Nat.zero_add _))
    exact ⟨hk, hcont, coreRun_succ_last.mpr ⟨_, hrun, ht⟩, hr⟩
  · rintro ⟨hk, hcont, hrun, hr⟩
    obtain ⟨u, hu, ht⟩ := coreRun_succ_last.mp hrun
    exact .halted (Nat.zero_add _).symm hk ⟨hcont, hu⟩ ht hr
  · rintro ⟨hm, hcont, hrun⟩
    obtain rfl := hm.trans (Nat.zero_add _)
    exact ⟨rfl, hcont, hrun⟩
  · rintro ⟨rfl, hcont, hrun⟩
    exact .outOfFuel (Nat.zero_add k).symm ⟨hcont, hrun⟩

end Sys2Proof.Proofs
end

section
/-! 70_reset_and_hazards.md R251, R253, R258: reset and the actions of the host keep the invariant of memory. -/

namespace Sys2Proof.Proofs

open Sys2Proof.Machine

/-- Settles O54: the one action that writes memory is a load of one byte (`Inv.load`); the others keep memory and the
parameters (`Inv.of_eq`). -/
theorem hostActionsKeepInvariant : Obligations.HostActionsKeepInvariant := by
  intro s h hs
  cases h with
  | writeByte a v => exact Inv.load [v] hs a
  | construct | setReg _ _ | setSp _ | setPc _ | setInte _ | setFlags _ | answer _ => exact Inv.of_eq hs rfl rfl

/-- Settles O44: the memory at reset lists no cell. -/
theorem resetInvariant : Obligations.ResetInvariant := ⟨rfl, rfl⟩

end Sys2Proof.Proofs
end
